-- ==== Sys2Proof/Word.lean ====
section
/-! DEFINITION. The word types of the SL-M32X register space (R36: every register word is 32 bits wide). -/

namespace Sys2Proof

/-- One register word: 32 bits (02_pages_and_drawers.md). -/
abbrev Word := BitVec 32

/-- One byte: a page number, a word offset in a page, a byte of a frame or of a memory bank. -/
abbrev Byte := BitVec 8

/-- A cell channel, 0 to 31 (R56). -/
abbrev Chan := Fin 32

/-- A drawer: 0 to 31 the cell channels, 32 the LEAF drawer (R56, R59). -/
abbrev Drawer := Fin 33

/-- An error line of the fault collector, the bit number of R305. -/
abbrev Line := Fin 32

end Sys2Proof
end

