-- ==== Sys2Proof/Syntax.lean ====
section
/-! DEFINITION. The commands of the block: one constructor of `Instr` per row of spec/opcode_table.json, with the
facts the row depends on as operands (the words a master writes, the frame MOSI carries, the analogue readings an
event reports). -/

namespace Sys2Proof

/-- The register masters of R21, and none (FCOL.xxx_INFO.MASTER). -/
inductive Master where
  | none | hostlink | mgmt | hkcore | recipe | log | capt | march | check0 | check1
  deriving DecidableEq, Repr

/-- The classes of R299. -/
inductive FClass where
  | corrected | contained | fatal
  deriving DecidableEq, Repr

/-- The access types of FCOL.xxx_INFO.ACC. -/
inductive Acc where
  | read | write | fetch | background
  deriving DecidableEq, Repr

/-- The banks of R326. -/
inductive Bank where
  | r | l | c | h | s | nvm
  deriving DecidableEq, Repr

/-- The address of a report (R298): none, a register, or a bank and byte address. -/
inductive Loc where
  | none
  | reg (page off : Byte)
  | bank (b : Bank) (addr : Nat)
  deriving DecidableEq, Repr

/-- A report on an error line (R298). `inj` marks one made by FCOL.INJECT (R325); `det` names the detector within its
block, by the code that the block's ERR_CAP.DETAIL gives it, 0 where it gives none, and `more` what else of DETAIL the
detector alone knows: the frame's OP (R276), a transaction's command code and byte index (R431), a tag's byte address (R411). -/
structure Report where
  line : Line
  cls : FClass
  chan : Option Chan
  loc : Loc
  master : Master
  acc : Acc
  inj : Bool
  det : Nat
  more : Nat
  deriving DecidableEq, Repr

/-- The comparators of R93 that can trip a channel. -/
inductive Trip where
  | vmax | vmin | ichg | idis | tmax | tmin | q | sense | peakFault | swnode | bootFault | rampAbort
  deriving DecidableEq, Repr

/-- The four host→field level channels (R26). -/
inductive LevelIn where
  | sync | estop | hgp0 | hgp1
  deriving DecidableEq, Repr

/-- An upset that a read meets (R329): the data bits of a word that have turned, beside its parity; `hard`: in NVM, every
repeat of the read fails too (R356). -/
structure Upset where
  bank : Bank
  addr : Nat
  flip : Word
  hard : Bool
  deriving DecidableEq, Repr

/-- A write of one register word by a master (R21). -/
structure RegWrite where
  m : Master
  page : Byte
  off : Byte
  v : Word
  deriving DecidableEq, Repr

/-- What MOSI carries between two edges of HCS#, and what met it on the way (R247, R255, R272).
`op` is not a field: the command's row gives it. -/
structure FrameIn where
  /-- H0 [4:0]. -/
  tag : BitVec 5
  /-- H1. -/
  page : Byte
  /-- H2. -/
  off : Byte
  /-- H3: words − 1. -/
  len : Byte
  /-- The whole bytes after H3: payload, then the check value, then any further bytes. -/
  rest : List Byte
  /-- Fewer than the four header bytes arrived. -/
  short : Bool
  /-- A number of bits that is not a multiple of 8 arrived. -/
  spare : Bool
  /-- The host die marked the frame (R250). -/
  marked : Bool
  /-- A coding error on the forward lane (condition 2 of R272). -/
  coding : Bool
  /-- Both copies of a staged word failed parity (R335). -/
  stageFail : Bool
  /-- Both copies of a response word failed parity (R335). -/
  respFail : Bool
  /-- A load fell in the frame's commit cycle (R142). -/
  race : Bool
  /-- Banks R, L, C, H (bits 0 to 3) in which an owner write met the frame's write of the same word (R337). -/
  coll : BitVec 4
  /-- Upsets the frame's reads meet (R329, R330). -/
  ups : List Upset
  /-- Words of the link buffers whose first copy alone fails parity as the endpoint reads them, by byte address in BANK-H
  (R335). -/
  mends : List Nat
  /-- Other masters' writes of the cycle in which the frame commits (R21, R22). -/
  also : List RegWrite
  deriving DecidableEq, Repr

/-- One sample instant of a channel's chains, raw decimated counts: 0.01 µV and 0.01 µA (R105, R120). -/
structure RawSample where
  v : Int
  ih : Int
  im : Int
  it : Int
  deriving DecidableEq, Repr

/-- What a measurement frame brings for one cell channel. No samples: the chain did not convert (R362). -/
structure ChanIn where
  /-- The sample instants that no earlier command of the frame has brought, 50 in all, or none. -/
  samples : List RawSample
  /-- What the outer loop asks of the current loop where it regulates V, and where a ramp has got to, µA (R98, R145). -/
  demand : Int
  /-- Sensor resistance at THn, 0.1 Ω (R112, R113). -/
  tres : Nat
  /-- V_force, µV (R212). -/
  vforce : Int
  /-- Measured transition intervals before the high-side and the low-side turn-on, ns (R84). -/
  edgeLH : Nat
  edgeHL : Nat
  deriving DecidableEq, Repr

/-- One sample instant of the LEAF unit's three modulators, raw counts (R124). -/
structure LeafSample where
  lv : Int
  lih : Int
  lim : Int
  deriving DecidableEq, Repr

/-- The samples taken since the last command that brought any, by channel, and the LEAF's (R105): an event that falls inside
a frame brings the frame's samples up to it. -/
structure Fresh where
  chans : List (Chan × List RawSample)
  leaf : List LeafSample
  deriving DecidableEq, Repr

/-- What one measurement frame brings to the device (R108, R213, R393, R375). -/
structure MeasIn where
  /-- One entry per cell channel, channel 0 first; a missing entry brings nothing. -/
  chans : List ChanIn
  /-- The LEAF's samples that no earlier command of the frame has brought, 50 in all, or none. -/
  leaf : List LeafSample
  /-- The LEAF chain's temperature reading, 0.01 °C (R59). -/
  leafT : Int
  /-- BENCH voltage, µV, and the voltage across the BENCH shunt, nV (R213). -/
  vb : Int
  vshunt : Int
  /-- Mean of the per-channel BENCH readings, µV (R214). -/
  vbLocal : Int
  /-- Sensor resistances at the AUXT inputs, 0.1 Ω (R114). -/
  auxt : List Nat
  /-- L+, mV (R393). -/
  lpv : Nat
  /-- Periods of the 32.768 kHz crystal since the last frame end (R375). -/
  periods : Nat
  /-- Upsets that the loads of this frame end meet (R331). -/
  ups : List Upset
  /-- Channels whose transition at this frame end a SAFE command meets, and the control steps it has executed by then
  (R163). -/
  safes : List (Chan × Nat)
  /-- A management bus or fixture port transaction is in progress (R364, HOLD bit 1). -/
  busy : Bool
  /-- The samples of the frame before each change of the PLL trim that fell in it, in their order (R119). -/
  cuts : List Nat
  deriving DecidableEq, Repr

/-- What the straps and the tests of start-up find (R434, R436). -/
structure StartIn where
  cid : BitVec 4
  madr : BitVec 2
  /-- Straps left open, whatever level their balls pick up once the pull-downs are off (R461). -/
  cidOpen : BitVec 4
  madrOpen : BitVec 2
  /-- TESTF reads high (R462). -/
  testf : Bool
  /-- Banks R, L, C, H that fail the destructive march (R338). -/
  marchFail : BitVec 4
  /-- Domains of PWR.DOMSTAT whose power-good does not arrive (R360). -/
  domFail : Byte
  /-- Erases of stage WIPE that do not complete: 0, 1 or 2 (R436). -/
  eraseFail : Nat
  /-- Upsets the reads of start-up meet in NVM and BANK-S (R356). -/
  ups : List Upset
  deriving DecidableEq, Repr

/-- A write transaction on the management bus after the address byte (R413 to R417). -/
structure MgmtTx where
  /-- The data bytes after the command code, the block count included where the protocol has one. -/
  data : List Byte
  /-- The PEC byte, if one is sent. -/
  pec : Option Byte
  /-- A START or STOP at a wrong place, at this byte index (R416). -/
  proto : Option Nat
  /-- The command byte is no code of the command table, or the protocol is not its code's (R415). -/
  nack : Bool
  /-- Upsets the transaction's reads meet (R329, R330). -/
  ups : List Upset
  /-- Banks R, L, C, H in which an owner write met the transaction's write of the same word (R337). -/
  coll : BitVec 4
  /-- Other masters' writes of the cycle in which the transaction commits (R21, R418). -/
  also : List RegWrite
  deriving DecidableEq, Repr

/-- What a read transaction on the management bus can break. -/
inductive TxFault where
  /-- a code that is not in the command table, or another protocol than its code's: the command byte is not acknowledged
  (R415) -/
  | protocol
  /-- a START or STOP at a wrong place, at this byte index (R416) -/
  | proto (idx : Nat)
  deriving DecidableEq, Repr

/-- One group of the preserving march (R339 to R343). -/
structure GroupIn where
  /-- Upsets the copy read meets in the group. -/
  ups : List Upset
  /-- Step 2 or 4 failed first in this word. -/
  fail : Option (Fin 64)
  /-- Words that read back different after the restore, with the bits that differ (R343). -/
  damaged : List (Fin 64 × Word)
  /-- HOSTLINK or MGMT accessed the group while it was borrowed (R341). -/
  accessed : Bool
  /-- The Huwaind core is in an interrupt entry or handler (R342). -/
  hkIrq : Bool
  deriving DecidableEq, Repr

/-- What a fixture read sequence meets on the bus (R401). -/
structure TagIn where
  /-- Tag bytes 0x00 to 0x5F, or no acknowledge. -/
  data : Option (List Byte)
  /-- Two attempts at the challenge: the challenge sent and the answer of the tag, if DONE came in time (R400). -/
  tries : List (List Byte × Option (List Byte))
  /-- The bytes read back from the copy that the count update writes, or no acknowledge in three attempts (R399). -/
  back : Option (List Byte)
  /-- Upsets the authenticator meets in BANK-S, or in NVM as it reloads a word (R330). -/
  ups : List Upset
  deriving DecidableEq, Repr

/-- One command of the block: a row of spec/opcode_table.json. -/
inductive Instr where
  | por (aonKept : Bool)
  | resetPin (lowNs : Nat)
  | rstcmd (m : Master) (v : Word)
  | startup (x : StartIn)
  | startupReady
  | imgportBlock (fifo : Bool) (words : List Word)
  | imageBlockDone (coll : BitVec 4)
  | imgctrlRestart (m : Master)
  | imgctrlEnd (m : Master) (domFail : Byte) (ups : List Upset)
  | bootwaitTimeout (domFail : Byte) (ups : List Upset)
  | hcsFall (mode3 : Bool)
  | poll (f : FrameIn)
  | write (f : FrameIn)
  | readReq (f : FrameIn)
  | readFetch (f : FrameIn)
  | writeFifo (f : FrameIn)
  | readFifoReq (f : FrameIn)
  | sync (f : FrameIn)
  | reservedOp (f : FrameIn)
  | responseReady
  | syncEdge (offsetNs : Int) (trim : Int)
  | syncAcquired (offsetNs : Int) (trim : Int)
  | syncLost
  | estopAssert
  | estopDeassert
  | hgpLevelChange (one : Bool) (level : Bool)
  | levelRefreshLoss (ch : LevelIn)
  | levelRefreshReturn (ch : LevelIn) (level : Bool)
  | fieldSupplyLoss (vdda : Bool)
  | hostSupplyLoss
  | vddpUv
  | vddpUvClear
  | arm (m : Master) (n : Drawer)
  | start (m : Master) (n : Drawer)
  | stop (m : Master) (n : Drawer)
  | pause (m : Master) (n : Drawer)
  | resume (m : Master) (n : Drawer)
  | safe (m : Master) (n : Drawer)
  | clear (m : Master) (n : Drawer)
  | safeRampEnd (n : Chan)
  | cfgWrite (m : Master) (n : Drawer) (v : Word)
  | frameEnd (x : MeasIn)
  | steptime (n : Chan)
  | recordReadable
  | pulseLevelChange (n : Chan) (x : Fresh)
  | cccvCvPhase (n : Chan)
  | dcirPulseEdge (n : Chan) (x : Fresh)
  | dcirResult (n : Chan) (second : Bool) (x : Fresh)
  | dcirComplete (n : Chan) (x : Fresh)
  | eisPointEnd (n : Chan) (x : Fresh) (ups : List Upset)
  | eisSweepEnd (n : Chan)
  | captureEnd (n : Chan)
  | rangeSwitchDone (n : Chan) (x : Fresh)
  | tripVmax (n : Chan) (also : List (Chan × Trip))
  | tripVmin (n : Chan) (also : List (Chan × Trip))
  | tripIchg (n : Chan) (also : List (Chan × Trip))
  | tripIdis (n : Chan) (also : List (Chan × Trip))
  | tripTmax (n : Chan) (also : List (Chan × Trip))
  | tripTmin (n : Chan) (also : List (Chan × Trip))
  | tripQ (n : Chan) (also : List (Chan × Trip))
  | tripSense (n : Chan) (also : List (Chan × Trip))
  | peak (n : Chan)
  | peakFault (n : Chan) (also : List (Chan × Trip))
  | swnode (n : Chan) (also : List (Chan × Trip))
  | bootUv (n : Chan)
  | bootFault (n : Chan) (also : List (Chan × Trip))
  | rampAbort (n : Chan) (also : List (Chan × Trip))
  | dtlim (n : Chan) (highSide : Bool)
  | fold (n : Chan) (on : Bool)
  | burstChange (n : Chan) (iref : Int)
  | highMidMismatch (n : Chan)
  | visitStart
  | substitutionStart
  | referencePhase
  | overlapOut
  | standinEnd (x : Fresh)
  | visitEnd
  | blendDone (n : Chan) (x : Fresh)
  | selfSlotStart
  | selfSlotEnd (vrefx : Int)
  | leafError (x : Fresh)
  | leafAged (n : Chan)
  | leafEnClear (m : Master)
  | benchSenseMismatch
  | benchOv (vb : Int)
  | benchOvPersist (vb : Int)
  | benchUv (vb : Int)
  | benchUvw
  | voltageThrottle (vb : Int)
  | qstall (e : Drawer)
  | bdemUpdate
  | hresReq (m : Master) (v : Word)
  | hresCancel (m : Master) (v : Word)
  | claim (events : List (Fin 128))
  | eoi (m : Master) (v : Word)
  | softset (m : Master) (v : Word)
  | pendClear (m : Master) (w : Fin 4) (v : Word) (events : Word)
  | gieWrite (m : Master) (v : Word)
  | prioWrite (m : Master) (w : Fin 16) (v : Word)
  | maskWrite (m : Master) (w : Fin 4) (v : Word)
  | errorReport (rs : List Report)
  | reactionEnd (nested timeout : Bool)
  | shadowEnd (nested : Bool) (present : List (Line × Option Chan × Nat))
  | errWindowExpire (b : Fin 53)
  | fsnow (m : Master) (v : Word)
  | fsexit (m : Master) (v : Word)
  | inject (m : Master) (v : Word)
  | collectorSelfCheckFail (code : Fin 3)
  | captureRearm (m : Master) (c : FClass) (rs : List Report)
  | errCapRearm (m : Master) (b : Fin 53) (detail : Option (BitVec 23))
  | aliveToggle
  | lockOpen (m : Master) (b : Fin 53) (v : Word)
  | lockClose (m : Master) (b : Fin 53) (v : Word)
  | lockAutoClose (b : Fin 53)
  | logSlotRebuild (slot : Fin 8192) (ups : List Upset)
  | hkGroupReload (addr : Nat) (ups : List Upset)
  | marchGo (m : Master)
  | marchStop (m : Master)
  | marchGroup (x : GroupIn)
  | checkPassStart (u : Bool)
  | checkPassEnd (u : Bool) (ups : List Upset)
  | checkPort (m : Master) (u : Bool) (words : List Word) (coll : BitVec 4)
  | keyport (m : Master) (words : List Word)
  | tamperPin (lowNs : Nat)
  | voltageGlitch (vdda : Bool) (permille : Int) (ns : Nat)
  | tempTamper (t : Int)
  | secureEraseDone (ups : List Upset)
  | lccmd (m : Master) (v : Word)
  | pairOverride (m : Master) (v : Word)
  | erase (m : Master)
  | prog (m : Master)
  | sealCmd (m : Master)
  | cfgchk (m : Master)
  | mailboxDone (nvmOk : Bool) (ups : List Upset)
  | hkRestartDone (ups : List Upset)
  | watchdogMiss
  | dietempSample (t : Int)
  | domainFail (d : Fin 8)
  | powerStateEntered
  | entryAbort (cause : Fin 16) (pin : Fin 8)
  | eventTimerWake
  | nextEventExpire
  | io24Wake (k : Fin 8)
  | wakeDone (elapsedMs : Nat) (periods : Nat) (late : Bool)
  | dwellEnd
  | pllunlock
  | xtalfail
  | vbaklow (low : Bool)
  | rtcstop
  | timeLoad (m : Master) (lo hi : Option Word)
  | syncenWrite (m : Master) (v : Word)
  | calendarAlarm (periods : Nat)
  | calendarTick (periods : Nat)
  | io24Edge (k : Fin 8) (raw : List Bool)
  | pcfgWrite (m : Master) (k : Fin 8) (v : Word)
  | io24WireBreak (k : Fin 8) (gone : Bool)
  | io24Overload (k : Fin 8) (thermal : Bool)
  | ovlrst (m : Master) (v : Word) (hot : Byte)
  | saferel (m : Master) (v : Word)
  | lpMissing
  | lpReturn
  | lpLow
  | reread (m : Master) (v : Word)
  | clampClose
  | fixtureSequence (x : TagIn)
  | fixtureSequenceEnd
  | clampOpen
  | override (m : Master) (v : Word)
  | arbRetry
  | fixtureBusStuck (freed : Bool) (losses : Option Byte)
  | mgmtAddressMatch (ara : Bool)
  | mgmtTimeout (code idx : Byte)
  | ident (e : Option TxFault)
  | faultsum (e : Option TxFault)
  | temps (e : Option TxFault)
  | benchsum (e : Option TxFault)
  | chstate (e : Option TxFault)
  | alertRead (e : Option TxFault)
  | alertWrite (t : MgmtTx)
  | alertResponse (won : Bool) (proto : Option Nat)
  | hostidle
  | estopSet (t : MgmtTx)
  | estopClear (t : MgmtTx)
  | estopRead (e : Option TxFault)
  | readReg (t : MgmtTx)
  | writeReg (t : MgmtTx)
  | writePort (t : MgmtTx)
  | registerWrite (w : RegWrite) (sets : Word) (rs : List Report) (also : List RegWrite) (coll : BitVec 4)
  | currentRampToZeroEnd (n : Chan)
  | dcirPulseEnd (n : Chan) (x : Fresh)
  | fieldSupplyReturn
  | hostSupplyReturn
  | pllRelock
  | rtcCrystalReturn
  | benchUvwEnd
  | sclRelease
  deriving DecidableEq, Repr

end Sys2Proof
end

