-- ==== Sys2Proof/Decode.lean ====
section
/-! DEFINITION. The command a word spells by the bits of the opcode table. -/

namespace Sys2Proof

/-- No row of spec/opcode_table.json gives bits: a command reaches the device as a frame, a transaction, a pin or an
event, and no word spells one (log entry 2). -/
def decodeTableWord (_nbits _w : Nat) : Option Instr := none

end Sys2Proof
end

