-- ==== Sys2Proof/Config.lean ====
section
/-! DEFINITION. What one SL-M32X fixes and what the manual leaves open. A constant with no body is a FREE VALUE:
no proof can see what it is, so a claim that mentions it holds whatever it is. -/

namespace Sys2Proof.Config

/-- The family member (00_scope.md): this model is the SL-M32X. -/
def member : Byte := 0x06

/-- A fresh free bit for each use, applied to the counter `State.free` (log entry 3). -/
opaque freeBit : Nat → Bool

/-- A fresh free word for each use, applied to the counter `State.free` (log entry 3). -/
opaque freeWord : Nat → Word

/-- Which way a tie of "rounded to nearest" goes where the manual does not say (log entry 4):
numerator and denominator of the rounded quotient. True: away from zero. -/
opaque tieAway : Int → Int → Bool

/-- The next output of the second-order Butterworth user filter with corner code FC (R107), from the new sample and
the last two inputs and outputs; the manual gives no coefficients (log entry 5). -/
opaque userFilter (fc : Nat) (x x1 x2 y1 y2 : Rat) : Rat

/-- The next output of the 10 Hz temperature filter (R109), in the same form (log entry 5). -/
opaque tempFilter (x x1 x2 y1 y2 : Rat) : Rat

/-- T as published, before T_OFS, of a filtered temperature in 0.01 °C: the manual gives no rounding (log entry 6). -/
opaque tempRound : Rat → Int

/-- SYS.VER_HW, VER_ROM and VER_UCODE, and the VER_HK that ROM alone shows (R448; log entry 7). -/
opaque verHw : BitVec 16
opaque verRom : BitVec 16
opaque verUcode : BitVec 16
opaque verHkRom : BitVec 16

/-- The public key in the boot ROM, a point of curve P-256, which the manual does not show (R448; log entry 7). -/
opaque verKey : Nat × Nat

/-- VER_UCODE of the recipe engine microcode patch that an image of these words carries; none: it carries none. The manual
gives the patch no place in the image (R439; log entry 27). -/
opaque imageUcode : List (BitVec 32) → Option (BitVec 16)

/-- What a store of bytes in the link buffers writes to the word at a byte address of BANK-H, from those bytes, the words of the
responses then in the buffer and what the word held; none: it does not reach the word. The manual lays the buffers out no further
(R326; log entry 39). -/
opaque linkWord : List (BitVec 8) → List (BitVec 32) → BitVec 32 → Nat → Option (BitVec 32)

/-- What the signed 32-bit word of a result reads where the result does not fit it, where R202, R207, R212 and R213 state none
(log entry 8). -/
opaque wordRange : Int → BitVec 32

/-- The mean over a window that holds no sample, for which the manual states none (R202; log entry 8). -/
opaque emptyMean : Nat → Int

/-- Re, Im and COH (0, 1, 2) of an EIS point whose current sums, or both magnitudes of COH's divisor, are 0, where R207
states no quotient (log entry 8). -/
opaque eisByZero : Nat → Int → Int

/-- The slope of the overlap-in fit when the sums of R125 determine none (log entry 8). -/
opaque fitByZero : Int → Int

/-- The gain trim when R126's divisor is 0 (log entry 8). -/
opaque trimByZero : Int → Int

end Sys2Proof.Config
end

