-- ==== Sys2Proof/Machine/Bits.lean ====
section
/-! DEFINITION. Bit fields of words, saturating counters, and the roundings the manual names. -/

namespace Sys2Proof.Machine

/-- Field [lo+n-1:lo] of a word as a number. -/
def fld (w : Word) (lo n : Nat) : Nat := (w.toNat >>> lo) % 2 ^ n

/-- Field [lo+n-1:lo] of a word as a signed number. -/
def sfld (w : Word) (lo n : Nat) : Int := (w.extractLsb' lo n).toInt

/-- Bit i of a word. -/
def bit (w : Word) (i : Nat) : Bool := w.getLsbD i

/-- The number v placed with its bit 0 at position lo. -/
def put (v lo : Nat) : Word := BitVec.ofNat 32 v <<< lo

/-- A one-bit field at position lo. -/
def putB (b : Bool) (lo : Nat) : Word := if b then BitVec.ofNat 32 1 <<< lo else 0

/-- The word whose only set bit is bit i. -/
def bitW (i : Nat) : Word := BitVec.ofNat 32 1 <<< i

/-- A word with bit i set to b. -/
def setB (w : Word) (i : Nat) (b : Bool) : Word :=
  if b then w ||| bitW i else w &&& ~~~ bitW i

/-- The field at lo of width n replaced by v. -/
def setFld (w : Word) (lo n v : Nat) : Word :=
  (w &&& ~~~ put (2 ^ n - 1) lo) ||| put (v % 2 ^ n) lo

/-- The bits of `mask` taken from `v`, the others from `old`. -/
def mix (old v mask : Word) : Word := (old &&& ~~~ mask) ||| (v &&& mask)

/-- Write-1-to-clear of the bits in `mask` (access code W1C, R13). -/
def w1c (old v mask : Word) : Word := old &&& ~~~ (v &&& mask)

/-- A word whose bits come from a predicate on the bit number. -/
def bitsOf (f : Nat → Bool) : Word := (List.range 32).foldl (fun a i => a ||| putB (f i) i) 0

/-- The number of set bits of a word. -/
def popCount (w : Word) : Nat := ((List.range 32).filter fun i => bit w i).length

/-- A signed quantity as a word (R9: two's complement). -/
def ofI (x : Int) : Word := BitVec.ofInt 32 x

/-- A signed result as its word shows it; one that does not fit the word has no stated value (log entry 8). -/
def fitWord (x : Int) : Word := if -(2 ^ 31) ≤ x ∧ x < 2 ^ 31 then ofI x else Config.wordRange x

/-- A signed 16-bit value in a word: bits [31:16] copy bit [15] (R11). -/
def ofI16 (x : Int) : Word := (BitVec.ofInt 16 x).signExtend 32

/-- x limited to the interval lo to hi. -/
def clampI (lo hi x : Int) : Int := if x < lo then lo else if hi < x then hi else x

/-- x limited to the interval lo to hi. -/
def clampN (lo hi x : Nat) : Nat := if x < lo then lo else if hi < x then hi else x

/-- A counter that saturates at `top`. -/
def satInc (top x : Nat) : Nat := if x < top then x + 1 else x

/-- A 32-bit counter that saturates at 0xFFFF_FFFF. -/
def satW (w : Word) : Word := if w = 0xFFFFFFFF#32 then w else w + 1

/-- A 16-bit half [15:0] of a word counting up, saturating at 65,535. -/
def satLo (w : Word) : Word := if fld w 0 16 = 65535 then w else w + 1

/-- A 16-bit half [31:16] of a word counting up, saturating at 65,535. -/
def satHi (w : Word) : Word := if fld w 16 16 = 65535 then w else w + 0x10000#32

/-- num / den rounded to the nearest integer, ties away from zero (R108); den = 0 answers 0. -/
def roundAway (num den : Int) : Int :=
  if den = 0 then 0 else
    let n := if den < 0 then -num else num
    let d := den.natAbs
    if 0 ≤ n then ((2 * n.natAbs + d) / (2 * d) : Nat)
    else - (((2 * n.natAbs + d) / (2 * d) : Nat) : Int)

/-- num / den truncated towards zero. -/
def truncZ (num den : Int) : Int := Int.tdiv num den

/-- ⌈num / den⌉ for natural numbers; den = 0 answers 0. -/
def ceilN (num den : Nat) : Nat := if den = 0 then 0 else (num + den - 1) / den

/-- The four bytes of a word, least significant first. -/
def bytesLE (w : Word) : List Byte :=
  [w.extractLsb' 0 8, w.extractLsb' 8 8, w.extractLsb' 16 8, w.extractLsb' 24 8]

/-- The four bytes of a word, most significant first (R243, R122). -/
def bytesBE (w : Word) : List Byte := (bytesLE w).reverse

/-- A word from four bytes, least significant first. -/
def wordLE (b0 b1 b2 b3 : Byte) : Word := b3 ++ b2 ++ b1 ++ b0

/-- Bytes to words, least significant byte first; a rest of fewer than four bytes is dropped. -/
def wordsLE : List Byte → List Word
  | b0 :: b1 :: b2 :: b3 :: rest => wordLE b0 b1 b2 b3 :: wordsLE rest
  | _ => []

/-- Bytes to words, most significant byte first; a rest of fewer than four bytes is dropped. -/
def wordsBE : List Byte → List Word
  | b0 :: b1 :: b2 :: b3 :: rest => wordLE b3 b2 b1 b0 :: wordsBE rest
  | _ => []

/-- A number as a big-endian list of n bytes. -/
def natBE (n v : Nat) : List Byte :=
  ((List.range n).map fun i => BitVec.ofNat 8 (v >>> (8 * i))).reverse

/-- The number a big-endian list of bytes spells. -/
def beNat (bs : List Byte) : Nat := bs.foldl (fun a b => a * 256 + b.toNat) 0

/-- ⌊√n⌋ by the bits of the result, from bit `k` down. -/
def isqrtAux (n : Nat) : Nat → Nat → Nat
  | 0, r => r
  | k + 1, r => let t := r + 2 ^ k; isqrtAux n k (if t * t ≤ n then t else r)

/-- ⌊√n⌋. -/
def isqrt (n : Nat) : Nat := isqrtAux n (Nat.log2 n / 2 + 1) 0

/-- The largest x below 2^k with x^d ≤ num, as ⌊num^(1/d)⌋ (structural on k). -/
def irootAux (d num : Nat) : Nat → Nat → Nat
  | 0, r => r
  | k + 1, r => let t := r + 2 ^ k; irootAux d num k (if t ^ d ≤ num then t else r)

end Sys2Proof.Machine
end

