-- ==== Sys2Proof/Machine/Crc.lean ====
section
/-! DEFINITION. The check values of the manual: the general CRC of the check units (R346) and its instances,
the link CRC-16 (R258), the record CRC-16 (R189), the calibration and image CRC-32 (R122), the SMBus PEC
(R413), and HMAC-SHA-256 (R400). -/

namespace Sys2Proof.Machine

/-- The parameters of one CRC (R346). POLY omits the x^WIDTH term. -/
structure CrcParams where
  width : Nat
  poly : Nat
  init : Nat
  xorout : Nat
  refin : Bool
  refout : Bool
  deriving DecidableEq, Repr

/-- The number v of n bits with its bits in reverse order. -/
def reflect (n v : Nat) : Nat :=
  (List.range n).foldl (fun a i => if v.testBit i then a + 2 ^ (n - 1 - i) else a) 0

/-- One data bit through a CRC register of `width` bits. -/
def crcBit (width poly r : Nat) (b : Bool) : Nat :=
  let top := r.testBit (width - 1)
  let s := (r * 2) % 2 ^ width
  if top != b then s ^^^ poly else s

/-- One byte through the register, most significant bit first, or reflected when REFIN is set. -/
def crcByte (p : CrcParams) (r : Nat) (b : Byte) : Nat :=
  let v := if p.refin then reflect 8 b.toNat else b.toNat
  [7, 6, 5, 4, 3, 2, 1, 0].foldl (fun a i => crcBit p.width (p.poly % 2 ^ p.width) a (v.testBit i)) r

/-- The CRC of a list of bytes (R346). -/
def crc (p : CrcParams) (bs : List Byte) : Nat :=
  let r := bs.foldl (crcByte p) (p.init % 2 ^ p.width)
  let q := if p.refout then reflect p.width r else r
  q ^^^ (p.xorout % 2 ^ p.width)

/-- The CRC-16 of the link and of the records: 0x1021, initial 0xFFFF, no reflection (R258, R189). -/
def crc16P : CrcParams := ⟨16, 0x1021, 0xFFFF, 0, false, false⟩

/-- The CRC-32 of R122. -/
def crc32P : CrcParams := ⟨32, 0x04C11DB7, 0xFFFFFFFF, 0xFFFFFFFF, true, true⟩

/-- The PEC of R413: CRC-8, polynomial 0x07, initial 0. -/
def pecP : CrcParams := ⟨8, 0x07, 0, 0, false, false⟩

/-- CRC-16 of bytes. -/
def crc16 (bs : List Byte) : BitVec 16 := BitVec.ofNat 16 (crc crc16P bs)

/-- CRC-32 of words, each most significant byte first, then a fold word (R122). -/
def crc32 (ws : List Word) (fold : Word) : Word :=
  BitVec.ofNat 32 (crc crc32P ((ws ++ [fold]).flatMap bytesBE))

/-- The fold word of a link check value: CID, direction, count (R258). -/
def linkFold (cid : BitVec 4) (resp : Bool) (count : BitVec 11) : List Byte :=
  natBE 2 (cid.toNat * 4096 + (if resp then 2048 else 0) + count.toNat)

/-- A link check value over the covered bytes and then the fold (R258). -/
def linkCrc (cid : BitVec 4) (resp : Bool) (count : BitVec 11) (bs : List Byte) : BitVec 16 :=
  crc16 (bs ++ linkFold cid resp count)

/-- SHA-256 round constants (FIPS 180-4, which FIPS 198-1 of R400 uses). -/
def shaK : List Word :=
  [0x428a2f98, 0x71374491, 0xb5c0fbcf, 0xe9b5dba5, 0x3956c25b, 0x59f111f1, 0x923f82a4, 0xab1c5ed5] ++
  [0xd807aa98, 0x12835b01, 0x243185be, 0x550c7dc3, 0x72be5d74, 0x80deb1fe, 0x9bdc06a7, 0xc19bf174] ++
  [0xe49b69c1, 0xefbe4786, 0x0fc19dc6, 0x240ca1cc, 0x2de92c6f, 0x4a7484aa, 0x5cb0a9dc, 0x76f988da] ++
  [0x983e5152, 0xa831c66d, 0xb00327c8, 0xbf597fc7, 0xc6e00bf3, 0xd5a79147, 0x06ca6351, 0x14292967] ++
  [0x27b70a85, 0x2e1b2138, 0x4d2c6dfc, 0x53380d13, 0x650a7354, 0x766a0abb, 0x81c2c92e, 0x92722c85] ++
  [0xa2bfe8a1, 0xa81a664b, 0xc24b8b70, 0xc76c51a3, 0xd192e819, 0xd6990624, 0xf40e3585, 0x106aa070] ++
  [0x19a4c116, 0x1e376c08, 0x2748774c, 0x34b0bcb5, 0x391c0cb3, 0x4ed8aa4a, 0x5b9cca4f, 0x682e6ff3] ++
  [0x748f82ee, 0x78a5636f, 0x84c87814, 0x8cc70208, 0x90befffa, 0xa4506ceb, 0xbef9a3f7, 0xc67178f2]

/-- The message schedule, newest word first, extended n times. -/
def shaSched : Nat → List Word → List Word
  | 0, w => w
  | n + 1, w =>
    let g := fun i => w.getD i 0
    let s0 := (g 14).rotateRight 7 ^^^ (g 14).rotateRight 18 ^^^ (g 14 >>> 3)
    let s1 := (g 1).rotateRight 17 ^^^ (g 1).rotateRight 19 ^^^ (g 1 >>> 10)
    shaSched n ((g 15 + s0 + g 6 + s1) :: w)

/-- The eight working words of SHA-256. -/
structure ShaSt where
  a : Word
  b : Word
  c : Word
  d : Word
  e : Word
  f : Word
  g : Word
  h : Word
  deriving DecidableEq, Repr

/-- One round with constant and schedule word kw. -/
def shaRound (s : ShaSt) (kw : Word × Word) : ShaSt :=
  let s1 := s.e.rotateRight 6 ^^^ s.e.rotateRight 11 ^^^ s.e.rotateRight 25
  let chv := (s.e &&& s.f) ^^^ (~~~ s.e &&& s.g)
  let t1 := s.h + s1 + chv + kw.1 + kw.2
  let s0 := s.a.rotateRight 2 ^^^ s.a.rotateRight 13 ^^^ s.a.rotateRight 22
  let maj := (s.a &&& s.b) ^^^ (s.a &&& s.c) ^^^ (s.b &&& s.c)
  ⟨t1 + s0 + maj, s.a, s.b, s.c, s.d + t1, s.e, s.f, s.g⟩

/-- One 64-byte block, as 16 words. -/
def shaBlock (s : ShaSt) (ws : List Word) : ShaSt :=
  let t := (shaK.zip (shaSched 48 ws.reverse).reverse).foldl shaRound s
  ⟨s.a + t.a, s.b + t.b, s.c + t.c, s.d + t.d, s.e + t.e, s.f + t.f, s.g + t.g, s.h + t.h⟩

/-- Blocks of 16 words, at most n of them. -/
def shaBlocks : Nat → ShaSt → List Word → ShaSt
  | 0, s, _ => s
  | n + 1, s, ws => if ws.isEmpty then s else shaBlocks n (shaBlock s (ws.take 16)) (ws.drop 16)

/-- SHA-256 of a list of bytes, as 32 bytes. -/
def sha256 (m : List Byte) : List Byte :=
  let pad := (119 - m.length % 64) % 64
  let full := m ++ [0x80#8] ++ List.replicate pad 0 ++ natBE 8 (8 * m.length)
  let s := shaBlocks (full.length / 64)
    ⟨0x6a09e667, 0xbb67ae85, 0x3c6ef372, 0xa54ff53a, 0x510e527f, 0x9b05688c, 0x1f83d9ab, 0x5be0cd19⟩
    (wordsBE full)
  [s.a, s.b, s.c, s.d, s.e, s.f, s.g, s.h].flatMap bytesBE

/-- HMAC-SHA-256 with a 32-byte key (R400, FIPS 198-1). -/
def hmac256 (key msg : List Byte) : List Byte :=
  let k := key ++ List.replicate (64 - key.length) 0
  let inner := sha256 (k.map (· ^^^ 0x36#8) ++ msg)
  sha256 (k.map (· ^^^ 0x5C#8) ++ inner)

end Sys2Proof.Machine
end

