-- ==== Sys2Proof/Machine/Ecdsa.lean ====
section
/-! DEFINITION. The signature check of the pairing list: ECDSA on curve P-256 with SHA-256 under FIPS 186-4 (R448; log
entry 7). -/

namespace Sys2Proof.Machine

/-- The prime, the order and the base point of curve P-256; its coefficient a is −3. -/
def p256P : Nat := 0xFFFFFFFF00000001000000000000000000000000FFFFFFFFFFFFFFFFFFFFFFFF
def p256N : Nat := 0xFFFFFFFF00000000FFFFFFFFFFFFFFFFBCE6FAADA7179E84F3B9CAC2FC632551
def p256G : Nat × Nat :=
  (0x6B17D1F2E12C4247F8BCE6E563A440F277037D812DEB33A0F4A13945D898C296,
   0x4FE342E2FE1A7F9B8EE7EB4A7C0F9E162BCE33576B315ECECBB6406837BF51F5)

/-- b^e modulo m, for an exponent of 256 bits. -/
def powMod (m b e : Nat) : Nat :=
  (List.range 256).foldr (fun i a => let q := a * a % m; if e.testBit i then q * b % m else q) 1

/-- The inverse modulo a prime m. -/
def invMod (m a : Nat) : Nat := powMod m (a % m) (m - 2)

/-- A point of the curve in affine coordinates; none: the point at infinity. -/
abbrev Point := Option (Nat × Nat)

/-- The sum of two points. -/
def addPoint : Point → Point → Point
  | none, q => q
  | p, none => p
  | some (x, y), some (u, v) =>
    let m := p256P
    if x = u ∧ (y + v) % m = 0 then none
    else
      let l := if x = u then (3 * x * x + (m - 3)) * invMod m (2 * y) % m else (v + (m - y)) * invMod m (u + (m - x)) % m
      let w := (l * l + 2 * m - x - u) % m
      some (w, (l * (x + (m - w)) + (m - y)) % m)

/-- A multiple of a point, for a factor of 256 bits. -/
def mulPoint (k : Nat) (p : Point) : Point :=
  (List.range 256).foldr (fun i a => let d := addPoint a a; if k.testBit i then addPoint d p else d) none

/-- The signature verifies over the message with public key q: its 64 bytes are r and s, most significant byte first. -/
def ecdsaOk (q : Nat × Nat) (msg sig : List Byte) : Bool :=
  let r := beNat (sig.take 32)
  let s := beNat (sig.drop 32)
  decide (1 ≤ r ∧ r < p256N ∧ 1 ≤ s ∧ s < p256N) &&
    (let w := invMod p256N s
     let e := beNat (sha256 msg)
     match addPoint (mulPoint (e * w % p256N) (some p256G)) (mulPoint (r * w % p256N) (some q)) with
     | none => false
     | some (x, _) => decide (x % p256N = r))

end Sys2Proof.Machine
end

