-- ==== Sys2Proof/Machine/Sparse.lean ====
section
/-! DEFINITION. A map from addresses to values as plain data in one canonical form: the listed addresses rise strictly
and no entry equals what an unlisted address reads as. The memory banks and the register store both use it. -/

namespace Sys2Proof.Machine

variable {α : Type} [DecidableEq α]

/-- What address a reads as: its entry, else the value `d a` of an unlisted address. -/
def sparseGet (d : Nat → α) : List (Nat × α) → Nat → α
  | [], a => d a
  | (k, v) :: rest, a => if k = a then v else if a < k then d a else sparseGet d rest a

/-- Address a set to v; a value that an unlisted address reads as removes the entry. -/
def sparsePut (d : Nat → α) (a : Nat) (v : α) : List (Nat × α) → List (Nat × α)
  | [] => if v = d a then [] else [(a, v)]
  | (k, w) :: rest =>
    if a < k then (if v = d a then (k, w) :: rest else (a, v) :: (k, w) :: rest)
    else if k = a then (if v = d a then rest else (a, v) :: rest)
    else (k, w) :: sparsePut d a v rest

/-- The canonical form. `lo` bounds the addresses from below. -/
def sparseWf (d : Nat → α) : Nat → List (Nat × α) → Bool
  | _, [] => true
  | lo, (k, v) :: rest => decide (lo ≤ k) && decide (v ≠ d k) && sparseWf d (k + 1) rest

/-- Consecutive values written from address a upward. -/
def sparsePutMany (d : Nat → α) : Nat → List α → List (Nat × α) → List (Nat × α)
  | _, [], m => m
  | a, v :: vs, m => sparsePutMany d (a + 1) vs (sparsePut d a v m)

/-- The entries of addresses outside [a, b). -/
def sparseDrop (a b : Nat) (m : List (Nat × α)) : List (Nat × α) :=
  m.filter fun e => decide (e.1 < a) || decide (b ≤ e.1)

end Sys2Proof.Machine
end

