-- ==== Sys2Proof/Machine/State.lean ====
section
/-! DEFINITION. The state of the SL-M32X as plain data, its reasons to stop, and the state right after reset.
Software-written registers live in `State.regs`, the sparse register store whose addresses and reset values
Machine/Regs.lean names; every other piece of state is a field here. -/

namespace Sys2Proof.Machine

/-- The offsets 0x01 to 0x07 every page and drawer has (R37): STATUS, IRQ_EN, ERR_CAP, ERR_CNT and LOCK.
CTRL is per block; LIVE is computed. -/
structure Common where
  /-- STATUS (R37). -/
  status : Word
  /-- IRQ_EN (R37, R38). -/
  irqEn : Word
  /-- ERR_CAP.LOSTCLR (R41, R292). -/
  lostClr : Byte
  /-- ERR_CAP.VALID. -/
  capValid : Bool
  /-- ERR_CAP.DETAIL. -/
  detail : BitVec 23
  /-- Reports counted within their windows (R306); ERR_CNT.COUNT shows it saturated at 255. -/
  count : Nat
  /-- Lines this counter has marked lasting (R307, R308). -/
  lastLines : Word
  /-- This counter has marked its channel lasting (R307). -/
  lastChan : Bool
  /-- ERR_CNT.THRESH (R42). -/
  thresh : Byte
  /-- ERR_CNT.WINDOW (R42). -/
  window : BitVec 16
  /-- LOCK.OPEN (R45). -/
  lockOpen : Bool
  /-- LOCK.OWNER: 0 none, 1 HOSTLINK, 2 MGMT, 3 HKCORE. -/
  owner : BitVec 2
  /-- LOCK.BADKEY (R47). -/
  badKey : BitVec 4
  /-- LOCK.LKDROP (R48). -/
  lkDrop : Bool
  deriving DecidableEq, Repr

/-- Channel states (R160, CH[n].STATE). -/
inductive ChState where
  | idle | armed | run | hold | safe | fault | done
  deriving DecidableEq, Repr

/-- Where a step of a channel in RUN stands (R168 to R170). -/
inductive Phase where
  /-- no running step, or a paused one -/
  | off
  /-- its request waits in the admission queue -/
  | queued
  /-- admitted or resumed; the setpoint applies at the next frame boundary -/
  | admitted
  /-- evaluated each frame -/
  | active
  deriving DecidableEq, Repr

/-- What a transition or a RESUME of the channel does next. -/
inductive Next where
  | none
  /-- load this entry at the next frame end (START, RESUME) -/
  | load (e : Fin 1024)
  /-- HOLD with no step to continue: RESUME loads this entry (R153, R164) -/
  | follow (e : Fin 1024)
  /-- stale hold: the entry whose load waits (R175) -/
  | stale (e : Fin 1024)
  deriving DecidableEq, Repr

/-- The active-step shadow (R141): entry, its eight words, the four pool words, the four descriptor words of an EIS
step, and DTWIN as taken at the load (R148). -/
structure Step where
  entry : Fin 1024
  w : Vector Word 8
  pool : Vector Word 4
  desc : Vector Word 4
  dtwin : Nat
  deriving DecidableEq, Repr

/-- Qualification of one termination word (R150). -/
structure Term where
  count : Nat
  side : Option Bool
  deriving DecidableEq, Repr

/-- A record a step that ended inside a frame still owes: it is formed at that frame's end (R182, R188). -/
structure Owed where
  entry : Fin 1024
  reason : Byte
  /-- The record is written: LOG = 1, or STEPTIME (R190). -/
  log : Bool
  deriving DecidableEq, Repr

/-- The sequencer of a channel (Recipe Engine). -/
structure Seq where
  state : ChState
  /-- STEP_PC.PC. -/
  pc : Fin 1024
  /-- STEP_PC.CVPH. -/
  cvph : Bool
  /-- LOOP0 to LOOP3. -/
  loops : Vector Word 4
  phase : Phase
  next : Next
  step : Option Step
  terms : Vector Term 4
  /-- STEP_T, ms (R168). -/
  stepT : Nat
  /-- Time since the load for RLIM_TIME, ms (R171). -/
  loadT : Nat
  /-- Evaluated frames of the step (R149). -/
  frames : Nat
  /-- Frame values of V and I of the step, newest first (R148). -/
  vHist : List Int
  iHist : List Int
  /-- Voltage peak tracker (KEEPPK, NDV). -/
  peak : Option Int
  /-- Lowest V and highest T of the step's chain of frames (R183, R187). -/
  minV : Option Int
  maxT : Option Int
  /-- Compared values of the last frame, by QTY 0 to 13 (R148, R156). -/
  lastQ : List (Option Int)
  /-- Those a JUMP takes: of the frame whose end began the transition, which a stale hold keeps, and of the one before it
  (R156). -/
  jumpQ : List (Option Int)
  prevQ : List (Option Int)
  /-- V, I and T of the frame whose end began the transition, which its marker and load-failure records carry (R190, R191). -/
  jumpF : Int × Int × Int
  /-- PULSE is at level B (R145). -/
  levelB : Bool
  /-- Sample instants that level has lasted at the start of the present frame; negative where it began inside the frame. -/
  levelT : Int
  /-- The DCIR or EIS step has completed; it ends at the frame end (R151, R167). -/
  done : Bool
  /-- WAIT with EDGE: the source's level as last seen, and whether it has changed to LEVEL since the load (R158). -/
  waitLast : Bool
  waitHit : Bool
  /-- STEP_REASON: REJ, REJCMD, ENTRY, TW, REASON. -/
  rej : BitVec 5
  rejCmd : BitVec 3
  endEntry : Fin 1024
  tw : BitVec 2
  reason : Byte
  owed : Option Owed
  deriving DecidableEq, Repr

/-- The power stage of a channel (Channel Power Stage). -/
structure Stage where
  /-- PS_LIVE: SWITCHING, TRICKLE_ON, RSW, RAMP, LIMCLAMP, FOLD, BURST. -/
  switching : Bool
  trickleOn : Bool
  rsw : Bool
  ramp : Bool
  limclamp : Bool
  fold : Bool
  burst : Bool
  /-- PS_EVT. -/
  evt : Word
  /-- DT_ACT. -/
  dtAct : Word
  /-- PK_CNT. -/
  pkCnt : Word
  /-- Current reference, µA, after R81 and before the trim. -/
  iref : Int
  /-- The current asked for, µA, before the clamp of R81: a limit that is written clamps it anew. -/
  want : Int
  /-- Reference frozen at the entry to SAFE (R98). -/
  i0 : Int
  /-- Conversion that closes the loop: 0 HIGH, 1 MID, 2 TRICKLE (R74, R106). -/
  src : BitVec 2
  /-- The current ramps to 0 at ILOOP.SLEW and the paths then stop (R164). -/
  toZero : Bool
  /-- Current flowed in the present frame (R215). -/
  flowed : Bool
  /-- The SAFE ramp ends in FAULT (R153, R166). -/
  toFault : Bool
  /-- Paths that carried the present frame's first samples: up to which sample, the loop source, and whether both
  conducted; oldest first (R106). -/
  was : List (Nat × BitVec 2 × Bool)
  /-- Samples from the start of the present frame to t_a of R75. -/
  enable : Option Nat
  /-- A range switch or SAFE ramp ran in the present frame (R212). -/
  moved : Bool
  deriving DecidableEq, Repr

/-- The accumulators of R179: signed, 64 integer and 32 fraction bits (R180). -/
structure Totals where
  qIn : BitVec 96
  qOut : BitVec 96
  eIn : BitVec 96
  eOut : BitVec 96
  net : BitVec 96
  cap : BitVec 96
  stepQ : BitVec 96
  stepE : BitVec 96
  deriving DecidableEq, Repr

/-- Drawer words 0x10 to 0x1F and CAPQ as published at the last frame end (R57). -/
structure Pub where
  v : Word
  i : Word
  t : Word
  p : Word
  qIn : BitVec 64
  qOut : BitVec 64
  eIn : BitVec 64
  eOut : BitVec 64
  stepQ : Word
  stepE : Word
  stepT : Word
  /-- STEP_REASON, of the channel's own sequencer. -/
  reason : Word
  capq : BitVec 64
  deriving DecidableEq, Repr

/-- The memory of a second-order filter: last two inputs and outputs; `on` false: no state held (R107). -/
structure Filt where
  on : Bool
  x1 : Rat
  x2 : Rat
  y1 : Rat
  y2 : Rat
  deriving DecidableEq, Repr

/-- The measurement chains of a channel. -/
structure Meas where
  /-- Samples of the present frame that events have brought. -/
  got : List RawSample
  /-- The streams of the last 10 ms, oldest first, in 0.01 µV and 0.01 µA (R201). -/
  hist : List (Int × Int)
  /-- User filter code in force (R107). -/
  fc : BitVec 4
  fv : Filt
  fi : Filt
  ft : Filt
  /-- The filter of the channel's own phase current, and its frame value, µA (R212). -/
  fo : Filt
  own : Int
  /-- Frames in a row in which HIGH and MID differed (R111). -/
  differ : Nat
  /-- Temperature values in a row above TMAX, and below TMIN (R93). -/
  hot : Nat
  cold : Nat
  /-- CRES, VDROP and CRES_STAT (R212). -/
  cres : Word
  vdrop : Word
  cresValid : Bool
  cresCount : Nat
  /-- VDROP × 10⁶ / I of the latest valid frames, as numerator and denominator, newest first. -/
  cresHist : List (Int × Int)
  deriving DecidableEq, Repr

/-- The DCIR words and the DCIR step in progress (R145, R202). -/
structure Dcir where
  /-- DCIR_STAT. -/
  stat : Word
  r1 : Word
  r2 : Word
  v0 : Word
  i0 : Word
  di1 : Word
  di2 : Word
  /-- The values DCIR1 and DCIR2 of R148 compare. -/
  last1 : Option Int
  last2 : Option Int
  /-- 0 none, 1 first base time, 2 pulse, 3 second base time. -/
  phase : BitVec 2
  /-- Sample instants from the pulse edge to the start of the present frame; negative where the edge lies in the frame. -/
  edge : Int
  /-- V0 and I0, in 0.01 µV and 0.01 µA (R202). -/
  base : Int × Int
  /-- Voltage bins of the use written, those before the edge with them (R201). -/
  bins : Nat
  /-- R_1 and R_2 of the step have been formed. -/
  done1 : Bool
  done2 : Bool
  /-- PAUSE, HOLD or SAFE met the step, or its slot use was reset (R203, R305). -/
  spoiled : Bool
  /-- This step has had a valid result. -/
  anyValid : Bool
  /-- The step is over and its slot still takes bins (R201): false up to the end of the frame, true until there are 1,000. -/
  tail : Option Bool
  deriving DecidableEq, Repr

/-- One completed point of an EIS sweep (R208): frequency mHz, Re, Im µΩ, COH. -/
structure EisPoint where
  f : Nat
  re : Int
  im : Int
  coh : Nat
  deriving DecidableEq, Repr

/-- A complex number. -/
structure Cplx where
  re : Int
  im : Int
  deriving DecidableEq, Repr

/-- The EIS words and the sweep in progress (R204 to R210). -/
structure Eis where
  /-- Frames of the point in progress (R206). -/
  ms : Nat
  /-- The samples of the present frame have joined a point (R206). -/
  taken : Bool
  /-- Sums of V and I over its half-windows a and b (R207), in units of 2⁻⁸⁰ of 0.01 µV and 0.01 µA. -/
  va : Cplx
  ia : Cplx
  vb : Cplx
  ib : Cplx
  /-- The broker trimmed the step in its window (R231). -/
  thr : Bool
  /-- EIS_STAT, EIS_R0, EIS_F0, EIS_RLF. -/
  stat : Word
  r0 : Word
  f0 : Word
  rlf : Word
  running : Bool
  /-- Point in progress. -/
  k : Nat
  /-- The point in progress is a re-run of this one (R208). -/
  rerun : Option Nat
  /-- Points to run again after the point in progress, in the order met (R333). -/
  again : List Nat
  /-- The words of these points and of the re-run in progress whose errors have been met (R330). -/
  met : List Nat
  /-- The amplitude was reduced (CLIP). -/
  clip : Bool
  /-- The slot use was reset: the sweep's results read invalid (R305). -/
  spoiled : Bool
  points : List EisPoint
  deriving DecidableEq, Repr

/-- What the broker counts for a channel (R215). -/
inductive Contr where
  | none
  /-- the estimate, cell side, mW; the limit R222 took in its place; frame ends left once the setpoint has applied -/
  | est (e : Int) (lim : Option Int) (left : Option Nat)
  | meas
  /-- after STOP, SAFE or FAULT: measured while current flows -/
  | decay
  deriving DecidableEq, Repr

/-- The pair a capture forms (R199): samples in it, their sums, and the pairs written. -/
structure Pair where
  k : Nat
  v : Int
  i : Int
  written : Nat
  deriving DecidableEq, Repr

/-- One drawer. -/
structure Ch where
  pair : Pair
  seq : Seq
  ps : Stage
  tot : Totals
  pub : Pub
  meas : Meas
  dcir : Dcir
  eis : Eis
  contr : Contr
  /-- The contribution as last formed, BENCH-side mW (R215). -/
  cval : Int
  /-- Frame values of V, I, P and T, µV, µA, mW, 0.01 °C (R108, R109). -/
  fv : Int
  fi : Int
  fp : Int
  ftemp : Int
  /-- The broker trims this channel (R231). -/
  trimmed : Bool
  deriving DecidableEq, Repr

/-- SYS page. -/
structure Sys where
  cid : BitVec 4
  madr : BitVec 2
  /-- BOOTSTAGE code (R434). -/
  stage : Byte
  /-- BOOTFLAGS. -/
  flags : Word
  verHk : BitVec 16
  verUcode : BitVec 16
  /-- PAIRSTAT bits. -/
  listed : Bool
  ovrUsed : Bool
  unpaired : Bool
  march : Bool
  listBad : Bool
  /-- PAIRLOG and PAIRTIME, held in NVM. -/
  pairLog : BitVec 16
  pairTime : Word
  calBad : Word
  /-- The start-up in progress opens the boot window on RSTCMD.WIN (R440). -/
  winReq : Bool
  /-- The start-up follows SYS.RSTCMD (R453). -/
  swRst : Bool
  /-- An effective write of RSTCMD whose reset waits for the end of every ramp, with its WIN. -/
  rstReq : Option Bool
  /-- MARCH failures of start-up, and BOOTWAIT and BOOTHOLD of the configuration image. -/
  bootWait : Nat
  deriving DecidableEq, Repr

/-- CLK page and calendar (R372 to R381). -/
structure Clk where
  sec : BitVec 48
  frac : BitVec 16
  /-- Position in the window of 2²⁰ crystal periods (R375). -/
  win : Nat
  aligned : Bool
  /-- Acquiring alignment since an edge (R116). -/
  acquiring : Bool
  /-- R117 holds, or no edge has come since start-up. -/
  freeRun : Bool
  /-- R374 holds: DOZE or SLEEP was entered and alignment has not been reached since. -/
  pllOff : Bool
  /-- SYNC edges ignored in a row (R116). -/
  slips : Nat
  /-- SYNCSTAT offset, ns, and PLLTRIM, 0.01 ppm. -/
  offset : BitVec 16
  pllTrim : Word
  /-- The trims in force before each change of it in the present frame, oldest first (R119). -/
  was : List Word
  vbakLow : Bool
  /-- The calendar has not been loaded (LIVE.TINV). -/
  notLoaded : Bool
  rtcStop : Bool
  xtalFail : Bool
  pllUnlock : Bool
  /-- A tick fell in DOZE or SLEEP (R379). -/
  tickHeld : Bool
  deriving DecidableEq, Repr

/-- Power states (R361). -/
inductive PState where
  | run | nap | doze | sleep | off
  deriving DecidableEq, Repr

/-- PWR page (R358 to R380). -/
structure Pwr where
  state : PState
  chosen : PState
  /-- An entry is in progress (R361). -/
  entering : Bool
  /-- A wake is in progress, with the code of R370 and the pin. -/
  waking : Option (BitVec 4 × BitVec 3)
  /-- The wake in progress ends an entry to DOZE or SLEEP that was aborted: no frame is served before RUN (R251). -/
  deepAbort : Bool
  /-- HOLD bits of the last evaluation. -/
  hold : BitVec 9
  nextEvent : Word
  /-- DOMSTAT and the domains that failed (R360). -/
  dom : Byte
  failed : Byte
  /-- WAKESRC. -/
  wakeSrc : Word
  /-- NEXTEV. -/
  nextEv : Word
  /-- The earliest event of the last choice is the LEAF's (R369). -/
  leafEv : Bool
  /-- The dwell of R368 runs. -/
  dwell : Bool
  /-- A LEAF wake holds RUN (R369). -/
  leafWake : Bool
  /-- ms after the return to RUN before frames are evaluated again (R159). -/
  settle : Nat
  /-- Frames since the return to RUN, for the dwell (R368). -/
  inRun : Nat
  /-- Frames since the entry to NAP, for NAPDIV (R362). -/
  napFrames : Nat
  deriving DecidableEq, Repr

/-- One entry of the in-service stack (R280). -/
structure StackEntry where
  src : Fin 128
  prio : BitVec 3
  deriving DecidableEq, Repr

/-- IRQ page. GIE, MASK and PRIO are in the register store. -/
structure Irq where
  /-- Latches of the pulse sources (R278). -/
  latch : BitVec 128
  /-- In-service stack, bottom first (R280). -/
  stack : List StackEntry
  /-- INT# as it was at the entry to DOZE or SLEEP (R295). -/
  held : Bool
  /-- PEND as it was at that entry (R295). -/
  pendHeld : BitVec 128
  /-- The word the last claim returned (R283). -/
  claimWord : Word
  deriving DecidableEq, Repr

/-- First-error capture of one class (R303). -/
structure Capture where
  info : Word
  addr : Word
  tsl : Word
  tsh : Word
  deriving DecidableEq, Repr

/-- One part of a running reaction (R310): code, line, and the channels a CH_SAFE affects or a BLOCK_RESET puts into SAFE. -/
structure RxPart where
  code : Nat
  line : Line
  chans : Word
  deriving DecidableEq, Repr

/-- A reaction that runs or whose shadow runs (R313, R319). -/
structure Reaction where
  code : Nat
  line : Line
  settle : Bool
  parts : List RxPart
  /-- Last shadowed report of each detector (R321). -/
  shadowed : List Report
  deriving DecidableEq, Repr

/-- FCOL page. STATUS is in the common words; REACT and SHADOW are in the register store. -/
structure Fcol where
  clsCor : Word
  clsCon : Word
  clsFat : Word
  /-- FSCAUSE. -/
  failStop : Bool
  fsLine : Line
  fsCause : BitVec 4
  shadowed : Word
  shmap : Word
  rxA : Option Reaction
  rxB : Option Reaction
  cor : Capture
  con : Capture
  fat : Capture
  /-- Level sent on ALIVE and ALIVEF (R317). -/
  alive : Bool
  /-- Reports that came in DOZE and SLEEP, where the collector stands, oldest first (R20, R358). -/
  held : List Report
  deriving DecidableEq, Repr

/-- A response in the buffer (R263, R267). -/
structure Response where
  tag : BitVec 5
  page : Byte
  off : Byte
  len : Byte
  na : Bool
  ready : Bool
  data : List Word
  deriving DecidableEq, Repr

/-- A host→field level channel: the level the host sends and whether refresh is lost (R26, R28). -/
structure Level where
  sent : Bool
  lost : Bool
  deriving DecidableEq, Repr

/-- LINK page, the response buffer, the level channels and the host die (Host Link and Jelefel Frames). -/
structure Link where
  reqCnt : BitVec 11
  rspCnt : BitVec 11
  /-- Queued and ready responses, oldest first (R263). -/
  buf : List Response
  held : Option Response
  frames : Word
  /-- ERRTOT: CRC discards and other discards. -/
  crcDisc : BitVec 16
  othDisc : BitVec 16
  lastFrm : Word
  prevOk : Bool
  /-- HCS# is low. -/
  hcsLow : Bool
  /-- The frame receives the no-answer pattern (R250, R251). -/
  noAns : Bool
  mode3 : Bool
  /-- Bytes 0 to 3 of the frame in progress (R248, R249). -/
  head : List Byte
  /-- What MISO carried in the last frame (R253, R267). -/
  miso : List Byte
  /-- The level channels from the host side (R26, R30). -/
  sync : Level
  estop : Level
  hgp0 : Level
  hgp1 : Level
  /-- The field→host channels are refreshed (R31). -/
  fieldRefresh : Bool
  /-- The level ALIVE holds at the host side while its channel has no refresh (R26, R31). -/
  aliveHeld : Bool
  /-- VH is in range (R32). -/
  hostUp : Bool
  deriving DecidableEq, Repr

/-- MGMT page. CTRL, CFG and ALERTEN are in the register store. -/
structure Mgmt where
  alertSrc : BitVec 7
  araDone : Bool
  txCnt : Word
  /-- The management stop latch (R426). -/
  stop : Bool
  /-- SCL is held low by the target during a wake (R419). -/
  stretch : Bool
  /-- SCL is held low by another device (R431). -/
  sclLow : Bool
  /-- The last conditions of R429, for their rising edges. -/
  cond : BitVec 7
  /-- ms known to have passed without an accepted frame: HOSTIDLE holds while CFG.HLTO does not exceed them. -/
  idle : Nat
  /-- The target acknowledged the last transaction, and the data it returned. -/
  ack : Bool
  out : List Byte
  deriving DecidableEq, Repr

/-- What the fixture port serves: a read sequence and what started it, or a clamp open that waits (R401, R403). -/
inductive SeqKind where
  | plain | clampClose | clampOpen
  deriving DecidableEq, Repr

/-- FIX page. CTRL, CFG and CHMAP are in the register store. -/
structure Fix where
  /-- FIX.STATE: 0 ABSENT, 1 UNVERIFIED, 2 GOOD, 3 WORN, 4 EXPIRED. -/
  state : BitVec 3
  ovr : Bool
  ser16 : BitVec 16
  cycles : Word
  days : BitVec 16
  pendCnt : Byte
  crMax : Word
  serial : BitVec 64
  htype : BitVec 16
  cycLim : Word
  cycWarn : Word
  dayLims : Word
  crWarn : Word
  crLim : Word
  pass : Bool
  noKey : Bool
  fails : Byte
  ovrCnt : BitVec 16
  ovrTime : Word
  crRun : Byte
  /-- A sequence has passed step 1 since start-up. -/
  loaded : Bool
  hdrBad : Bool
  cntBad : Bool
  busLow : Bool
  /-- The sequence in progress, what waits for it, and the state before it began. -/
  running : Option SeqKind
  waiting : List SeqKind
  before : BitVec 3
  /-- The new state the sequence in progress has reached. -/
  result : Option (BitVec 3)
  losses : Nat
  /-- The filtered level of the clamp pin that the port has served last (R401, R403). -/
  seen : Bool
  /-- The count copy the port wrote last, and its tag address (R399). -/
  sent : Option (Nat × List Byte)
  deriving DecidableEq, Repr

/-- One IO24 pin. PCFG is in the register store. -/
structure Pin where
  integ : Byte
  filt : Bool
  raw : Bool
  wb : Bool
  /-- OVLSTAT: latched off by thermal shutdown, by current limit. -/
  ovlT : Bool
  ovlC : Bool
  safeLatch : Bool
  /-- The level an output last drove, for EDGE (R385). -/
  drove : Bool
  /-- The level of its source as the device entered DOZE or SLEEP (R363). -/
  held : Bool
  /-- Instants of 10 µs since the last sample (R384). -/
  phase : Nat
  deriving DecidableEq, Repr

/-- IO24 page. OUT, SAFEVAL and PCFG are in the register store. -/
structure Io24 where
  pins : Vector Pin 8
  lpMiss : Bool
  lpLow : Bool
  lpv : Word
  deriving DecidableEq, Repr

/-- The banks of R326: bytes by address, in canonical form (Machine/Ops.lean: Mem.wf). -/
structure Banks where
  r : List Host.Cell
  l : List Host.Cell
  c : List Host.Cell
  h : List Host.Cell
  s : List Host.Cell
  nvm : List Host.Cell
  /-- Words whose stored parity is wrong, by bank and byte address of the word (R329). -/
  bad : List (Bank × Nat)
  deriving DecidableEq, Repr

/-- A recovery of R330 in progress: the word, and the access that met the error. -/
structure Recovery where
  bank : Bank
  addr : Nat
  master : Master
  acc : Acc
  deriving DecidableEq, Repr

/-- MEM page and the march engine. CTRL is in the register store. -/
structure MemCtl where
  running : Bool
  bank : BitVec 2
  group : BitVec 11
  stop : Bool
  mpass : Word
  yields : Word
  /-- SKIPS. -/
  skips : Word
  mfail : Word
  bootMarch : Word
  /-- PECNT_R to PECNT_N. -/
  pecnt : Vector Word 6
  collmap : BitVec 4
  /-- Yields in a row of the group in progress (R341). -/
  inRow : Nat
  /-- The group that follows in ascending order, and the groups to repeat with their yields. -/
  seqNext : Option (BitVec 2 × BitVec 11)
  again : List ((BitVec 2 × BitVec 11) × Nat)
  /-- Recoveries in progress (R330). -/
  recov : List Recovery
  deriving DecidableEq, Repr

/-- One check unit (R346 to R351). CFG, POLY, INIT, XOROUT, FOLD, REGA and REGB are in the register store. -/
structure CheckUnit where
  expect : Word
  result : Word
  /-- PASSES: DISC and DONE. -/
  passes : Word
  seq : Word
  /-- MISCNT: MIS and REJ. -/
  miscnt : Word
  busy : Bool
  /-- The pass in progress is to be discarded (R348). -/
  dirty : Bool
  /-- The next completed pass loads EXPECT under TRACK (R348). -/
  fresh : Bool
  /-- Words of the block in progress, and words written to the destination. -/
  block : List Word
  dest : Nat
  deriving DecidableEq, Repr

/-- One entry of the admission queue (R220). -/
structure QEntry where
  /-- Channel, or 32 for the host reservation. -/
  idx : Drawer
  prio : Nat
  /-- Estimate, mW, cell side; the reservation counts with HRES_P itself (R227). -/
  est : Int
  /-- Frame-end processing in which the request arrived. -/
  arrived : Nat
  /-- ms waited. -/
  waited : Nat
  stalled : Bool
  /-- The step asked for replaces the channel's running step, or goes on with it after PAUSE (R218). -/
  replaces : Bool
  deriving DecidableEq, Repr

/-- BENCH page and broker. The configuration words are in the register store. -/
structure Bench where
  vb : Word
  ib : Word
  pb : Word
  pnet : Word
  pchg : Word
  pdis : Word
  /-- PNET, PCHG and PDIS as numbers, mW. -/
  net : Int
  chg : Int
  dis : Int
  /-- Factors in units of 1/65,536 (R228, R229, R230). -/
  kv : Nat
  kp : Nat
  /-- k is forced to 0 by R232. -/
  ovForce : Bool
  queue : List QEntry
  /-- Filtered bus voltage of the last event, µV. -/
  vbf : Option Int
  bov : Bool
  buv : Bool
  buvw : Bool
  /-- The substitute of R214 is in use; clear frames, and frames beyond 5 %, in a row; the mean of the channels' readings. -/
  subst : Bool
  senseClear : Nat
  senseFar : Nat
  vbLocal : Int
  /-- Frame ends that a BLOCK_RESET still acts on: at the first the substitute is used, at the last the chain is back (R305). -/
  forced : Nat
  /-- VB as R214 lets the rules of the chapter use it; none until one has been published. -/
  vbUse : Option Int
  /-- THRLOG: the channels trimmed since their bits were cleared (R231). -/
  thrlog : Word
  /-- The host reservation is granted (R227). -/
  granted : Bool
  /-- BDEM_ACT: P_DEM and N. -/
  pdem : Int
  n : Nat
  /-- Frame-end processings since start-up, for the order of arrival (R220). -/
  tick : Nat
  deriving DecidableEq, Repr

/-- Trims of one stream: GT and OT (R120). -/
structure Trim where
  gt : BitVec 16
  ot : BitVec 16
  deriving DecidableEq, Repr

/-- TRIMV, TRIMH and TRIMM of one drawer. -/
structure Trims where
  v : Trim
  h : Trim
  m : Trim
  deriving DecidableEq, Repr

/-- The fit of one stream (R125): a, b and m. -/
structure Fit where
  a : Rat
  b : Rat
  m : Rat
  deriving DecidableEq, Repr

/-- Sums over the samples of one stream in a phase of a visit or self slot: of the overlap-in fit (R125), or of the raw zero
and reference samples (R126), or of the confirmation (R128). -/
structure Sums where
  /-- Σ y_L, Σ d, Σ y_L², Σ y_L·d, the number of pairs, and the range of y_L. -/
  n : Nat
  l : Int
  d : Int
  ll : Int
  ld : Int
  lo : Int
  hi : Int
  /-- Raw zero and reference samples. -/
  nz : Nat
  z : Int
  nr : Nat
  r : Int
  /-- Σ |y_ch − y_L| of the confirmation, and its samples. -/
  nc : Nat
  c : Int
  deriving DecidableEq, Repr

/-- Phases of LEAF.VISIT. -/
inductive VPhase where
  | none | overlapIn | zero | reference | overlapOut | selfSlot | stopped
  deriving DecidableEq, Repr

/-- LEAF page (R122 to R138). CTRL, LTIME, CHMASK, MAXAGE, CONFIRM, REFX_VAL and AUXT_CFG are in the register store. -/
structure Leaf where
  phase : VPhase
  /-- Frames of the present phase, and LTIME as taken at the visit boundary (R124). -/
  inPhase : Nat
  ltime : Word
  /-- Sums of the visit or self slot: V, HIGH, MID. -/
  sums : Sums × Sums × Sums
  /-- LEAF samples of the present frame that events have brought. -/
  got : List LeafSample
  /-- VISIT.CH: visited channel; 32 self slot, 63 none. -/
  ch : BitVec 6
  time : Nat
  rotcnt : Word
  deferred : Word
  aged : Word
  vfail : Word
  refDiff : Word
  auxt : Vector (BitVec 16) 8
  auxf : Vector Filt 8
  trims : Vector Trims 33
  /-- New trims of the visit, those a blend moves to, and those it moves from (R126, R129). -/
  fresh : Option Trims
  blend : Vector (Option Trims) 32
  old : Vector Trims 32
  /-- α of the blend, V, HIGH and MID (R129). -/
  alpha : Vector (Rat × Rat × Rat) 32
  /-- Age of each channel, ms (R131). -/
  ages : Vector Nat 32
  /-- Unconfirmed visits in a row (R128). -/
  fails : Vector Nat 32
  /-- The scheduler's n. -/
  nextN : Nat
  /-- A self failure holds the LEAF (R135). -/
  selfFail : Bool
  /-- The internal reference replaces VREFX (R136). -/
  refxBad : Bool
  fits : Fit × Fit × Fit
  /-- A stand-in runs (LEAFV), and the last stand-in values (R134). -/
  standin : Bool
  lastS : Int × Int × Int
  gapFill : Bool
  /-- The sample of the present frame from which the gap fill holds (R134). -/
  gapAt : Nat
  /-- The channel whose own samples resume inside the present frame, and from which sample (R134). -/
  resume : Option (Chan × Nat)
  /-- LCALP − LCALN as the self slot measured it, µV, until the frame publishes it (R137). -/
  selfV : Option Word
  /-- The visit was broken off: its trims are not computed or confirmed (R133). -/
  cut : Bool
  /-- The trims of the visit are out of range (R127). -/
  failed : Bool
  /-- The visit ends at the next frame boundary; the flag: its channel is then deferred (R133). -/
  leaving : Option Bool
  deriving DecidableEq, Repr

/-- RCP page. CTRL and DTWIN are in the register store. -/
structure Rcp where
  edition : Word
  release : Word
  lastRej : Word
  /-- Stale marks, bit k of entry k (R175). -/
  stale : BitVec 1024
  deriving DecidableEq, Repr

/-- A formed record: channel and words W0 to W7 without CRC and sequence number. -/
structure Record where
  ch : Chan
  w : Vector Word 8
  deriving DecidableEq, Repr

/-- LOG page (R193 to R197). CTRL, THRESH, QUOTA and WBASE are in the register store. -/
structure Log where
  wrcnt : Word
  /-- Channel tags of the unread slots, oldest first: FILL and the UNREAD counts (R193). -/
  unread : List Chan
  /-- A written TAIL that has not taken effect (R195). -/
  tailReq : Option (BitVec 13)
  dropcnt : Word
  drops : Vector (BitVec 16) 32
  /-- Records formed and not yet readable (R196), oldest first. -/
  pending : List Record
  /-- The channel's most recent record and its sequence number (R332). -/
  shadow : Vector (Option (Word × Record)) 32
  deriving DecidableEq, Repr

/-- A capture, DCIR or EIS use of a slot (R198). -/
structure SlotUse where
  kind : BitVec 4
  entry : Fin 1024
  /-- Header words 1 to 3 as written at its start (R333). -/
  tl : Word
  w2 : Word
  w3 : Word
  deriving DecidableEq, Repr

/-- CAP page. CTRL and WSEL are in the register store. -/
structure Cap where
  uses : Vector (Option SlotUse) 32
  /-- A capture runs on the channel, whether or not a slot is written (R199, R200). -/
  armed : Word
  cdmap : Word
  edmap : Word
  deriving DecidableEq, Repr

/-- Life-cycle states (R451). -/
inductive Life where
  | blank | factory | calibrated | field | returned
  deriving DecidableEq, Repr

/-- SEC page (R352 to R355, R451). CTRL and TCFG are in the register store; BANK-S and the secure partition are bytes
of `Banks`. -/
structure Sec where
  life : Life
  /-- Target of the transition in progress. -/
  pend : Option Life
  wipeCnt : Word
  /-- Trigger conditions present: TAMPER#, lid, glitch, temperature. -/
  trig : BitVec 4
  /-- NVPEND: a secure erase is pending (R355). -/
  nvpend : Bool
  /-- The erase of the secure partition is under way, in RUN (R355). -/
  erasing : Bool
  deriving DecidableEq, Repr

/-- Where the core's image came from (R440, R441). -/
inductive Image where
  | rom | nvm | host
  deriving DecidableEq, Repr

/-- HK page and the Huwaind core. MBARG0, MBARG1, MBDATA and DTCFG are in the register store. -/
structure Hk where
  /-- The mailbox command in progress. -/
  cmd : Option Byte
  result : Byte
  dieTemp : Word
  warn : Bool
  hot : Bool
  imgOpen : Bool
  imgEnded : Bool
  badCnt : Byte
  nextBlk : Nat
  /-- The blocks check unit 1 processes, oldest first, and whether each is acceptable (R274). -/
  blocks : List (Bool × List Word)
  image : Image
  /-- Check value of the NVM image loaded at start-up, and the length in words of the image in use (R334, R441). -/
  bootCrc : Option Word
  imageLen : Nat
  /-- Words of BANK-H whose parity error the running restart mends (R330, R334). -/
  mends : List Nat
  restarting : Bool
  deriving DecidableEq, Repr

/-- NVM page. WBASE is in the register store. -/
structure Nvm where
  /-- An erase or program of the mailbox runs. -/
  busy : Bool
  /-- A BLOCK_RESET of the line NVM has abandoned it (R305). -/
  dropped : Bool
  deriving DecidableEq, Repr

/-- Supplies and reset pins. -/
structure Supply where
  vddpUv : Bool
  vddaLow : Bool
  deriving DecidableEq, Repr

/-- The whole device. -/
structure State where
  /-- Commands that wait, first in, first out. -/
  pending : List Instr
  /-- Software-written registers that differ from their reset value: page × 256 + offset, rising. -/
  regs : List (Nat × Word)
  /-- Common words: pages 0x00 to 0x13 at 0 to 19, drawers at 20 to 52. -/
  com : Vector Common 53
  ch : Vector Ch 33
  sys : Sys
  clk : Clk
  pwr : Pwr
  irq : Irq
  fcol : Fcol
  link : Link
  mgmt : Mgmt
  fix : Fix
  io : Io24
  banks : Banks
  memc : MemCtl
  units : Vector CheckUnit 2
  bench : Bench
  leaf : Leaf
  rcp : Rcp
  log : Log
  cap : Cap
  sec : Sec
  hk : Hk
  nvm : Nvm
  sup : Supply
  /-- DIGEST offsets 0x08 to 0x6A, and FRAME (R60). -/
  digest : Vector Word 99
  frame : Word
  /-- Free values used so far (the model's own field, log entry 3). -/
  free : Nat
  deriving DecidableEq, Repr

/-- The reasons a step could stop with a fault. No command of the SL-M32X does: the manual turns every fault of the
device into a report, a flag, a refused command or a rejected frame. -/
inductive Fault where
  /-- Raised by nothing. Safe: no step ends in it. -/
  | noFault
  deriving DecidableEq, Repr

/-- The reasons a step could be refused. -/
inductive Refusal where
  /-- A command that has no meaning yet, by its mnemonic. Safe: the model says nothing about it. -/
  | notModelled (mnemonic : String)
  deriving DecidableEq, Repr

/-- The common words of block `b` after reset (02_pages_and_drawers.md); FCOL.IRQ_EN resets to 0xFFFF_FFFF,
CLK.STATUS to 0x0000_0020 (TINV). -/
def Common.reset (b : Fin 53) : Common :=
  { status := if b = 1 then 0x20 else 0, irqEn := if b = 4 then 0xFFFFFFFF#32 else 0, lostClr := 0, capValid := false, detail := 0
    count := 0, lastLines := 0, lastChan := false, thresh := 1, window := 0x03E8
    lockOpen := false, owner := 0, badKey := 0, lkDrop := false }

/-- A filter at rest at x. -/
def Filt.rest (x : Rat) : Filt := ⟨true, x, x, x, x⟩

/-- No samples summed. -/
def Sums.zero : Sums := ⟨0, 0, 0, 0, 0, 0, 0, 0, 0, 0, 0, 0, 0⟩

/-- The sequencer after reset. -/
def Seq.reset : Seq :=
  { state := .idle, pc := 0, cvph := false, loops := Vector.replicate 4 0, phase := .off, next := .none, step := none
    terms := Vector.replicate 4 ⟨0, none⟩, stepT := 0, loadT := 0, frames := 0, vHist := [], iHist := []
    peak := none, minV := none, maxT := none, lastQ := [], jumpQ := [], prevQ := [], jumpF := (0, 0, 0)
    levelB := false, levelT := 0, done := false
    waitLast := false, waitHit := false
    rej := 0, rejCmd := 0, endEntry := 0, tw := 0, reason := 0, owed := none }

/-- The power stage after reset: DT_ACT = 0x003C_003C, all paths off. -/
def Stage.reset : Stage :=
  { switching := false, trickleOn := false, rsw := false, ramp := false, limclamp := false, fold := false
    burst := false, evt := 0, dtAct := 0x003C003C, pkCnt := 0, iref := 0, want := 0, i0 := 0, src := 0
    toZero := false, flowed := false, toFault := false, was := [], enable := none, moved := false }

/-- A drawer after reset; DCIR_R1, DCIR_R2 and EIS_R0 read 0x8000_0000, the filter code is 3 (R107). -/
def Ch.reset : Ch :=
  { pair := ⟨0, 0, 0, 0⟩, seq := .reset, ps := .reset
    tot := ⟨0, 0, 0, 0, 0, 0, 0, 0⟩
    pub := ⟨0, 0, 0, 0, 0, 0, 0, 0, 0, 0, 0, 0, 0⟩
    meas := { got := [], hist := [], fc := 3, fv := .rest 0, fi := .rest 0, ft := ⟨false, 0, 0, 0, 0⟩, fo := .rest 0
              own := 0, differ := 0, hot := 0, cold := 0, cres := 0, vdrop := 0, cresValid := false
              cresCount := 0, cresHist := [] }
    dcir := { stat := 0, r1 := 0x80000000, r2 := 0x80000000, v0 := 0, i0 := 0, di1 := 0, di2 := 0
              last1 := none, last2 := none, phase := 0, edge := 0, base := (0, 0), bins := 0, done1 := false
              done2 := false, spoiled := false, anyValid := false, tail := none }
    eis := { ms := 0, taken := false, va := ⟨0, 0⟩, ia := ⟨0, 0⟩, vb := ⟨0, 0⟩, ib := ⟨0, 0⟩, thr := false
             stat := 0, r0 := 0x80000000, f0 := 0, rlf := 0, running := false, k := 0, rerun := none
             again := [], met := [], clip := false, spoiled := false, points := [] }
    contr := .none, cval := 0, fv := 0, fi := 0, fp := 0, ftemp := 0, trimmed := false }

/-- An IO24 pin after reset (R384). -/
def Pin.reset : Pin := ⟨0, false, false, false, false, false, false, false, false, 0⟩

/-- A check unit after reset. -/
def CheckUnit.reset : CheckUnit := ⟨0, 0, 0, 0, 0, false, false, true, [], 0⟩

/-- The device right after the release of reset: BOOTSTAGE = 0x00, start-up not yet run (R432, R434). -/
def State.reset : State :=
  { pending := [], regs := []
    com := Vector.ofFn Common.reset
    ch := Vector.replicate 33 .reset
    sys := { cid := 0, madr := 0, stage := 0, flags := 0, verHk := Config.verHkRom, verUcode := Config.verUcode
             listed := false, ovrUsed := false, unpaired := false, march := false, listBad := false
             pairLog := 0, pairTime := 0, calBad := 0, winReq := false, swRst := false, rstReq := none, bootWait := 0 }
    clk := { sec := 0, frac := 0, win := 0, aligned := false, acquiring := false, freeRun := true, pllOff := false, slips := 0
             offset := 0, pllTrim := 0, was := [], vbakLow := false, notLoaded := true, rtcStop := false, xtalFail := false
             pllUnlock := false, tickHeld := false }
    pwr := { state := .run, chosen := .run, entering := false, waking := none, deepAbort := false, hold := 1
             nextEvent := 0, dom := 0
             failed := 0, wakeSrc := 0, nextEv := 0xFFFFFFFF, leafEv := false, dwell := false, leafWake := false, settle := 0
             inRun := 0, napFrames := 0 }
    irq := { latch := 0, stack := [], held := false, pendHeld := 0, claimWord := 0xFF }
    fcol := { clsCor := 0, clsCon := 0, clsFat := 0, failStop := false, fsLine := 0, fsCause := 0, shadowed := 0
              shmap := 0, rxA := none, rxB := none, cor := ⟨0, 0, 0, 0⟩, con := ⟨0, 0, 0, 0⟩, fat := ⟨0, 0, 0, 0⟩
              alive := false, held := [] }
    link := { reqCnt := 0, rspCnt := 0, buf := [], held := none, frames := 0, crcDisc := 0, othDisc := 0, lastFrm := 0
              prevOk := false, hcsLow := false, noAns := false, mode3 := false, head := [], miso := []
              sync := ⟨false, false⟩, estop := ⟨true, false⟩, hgp0 := ⟨false, false⟩, hgp1 := ⟨false, false⟩
              fieldRefresh := true, aliveHeld := false, hostUp := true }
    mgmt := { alertSrc := 0, araDone := false, txCnt := 0, stop := false, stretch := false, sclLow := false, cond := 0
              idle := 0, ack := false, out := [] }
    fix := { state := 0, ovr := false, ser16 := 0, cycles := 0, days := 0, pendCnt := 0, crMax := 0, serial := 0
             htype := 0, cycLim := 0, cycWarn := 0, dayLims := 0, crWarn := 0, crLim := 0, pass := false
             noKey := false, fails := 0, ovrCnt := 0, ovrTime := 0, crRun := 0, loaded := false, hdrBad := false
             cntBad := false, busLow := false, running := none, waiting := [], before := 0, result := none
             losses := 0, seen := false, sent := none }
    io := { pins := Vector.replicate 8 .reset, lpMiss := false, lpLow := false, lpv := 0 }
    banks := ⟨[], [], [], [], [], [], []⟩
    memc := { running := false, bank := 0, group := 0, stop := false, mpass := 0, yields := 0, skips := 0, mfail := 0
              bootMarch := 0, pecnt := Vector.replicate 6 0, collmap := 0, inRow := 0, seqNext := none, again := [], recov := [] }
    units := Vector.replicate 2 .reset
    bench := { vb := 0, ib := 0, pb := 0, pnet := 0, pchg := 0, pdis := 0, net := 0, chg := 0, dis := 0, kv := 65536
               kp := 65536, ovForce := false, queue := [], vbf := none, bov := false, buv := false, buvw := false
               subst := false, senseClear := 0, senseFar := 0, vbLocal := 0, forced := 0, vbUse := none, thrlog := 0
               granted := false, pdem := 0
               n := 0, tick := 0 }
    leaf := { phase := .none, inPhase := 0, ltime := 0x0A05050A, sums := (.zero, .zero, .zero), got := []
              ch := 0x3F, time := 0, rotcnt := 0, deferred := 0, aged := 0, vfail := 0, refDiff := 0
              auxt := Vector.replicate 8 0, auxf := Vector.replicate 8 ⟨false, 0, 0, 0, 0⟩
              trims := Vector.replicate 33 ⟨⟨0, 0⟩, ⟨0, 0⟩, ⟨0, 0⟩⟩, fresh := none, blend := Vector.replicate 32 none
              old := Vector.replicate 32 ⟨⟨0, 0⟩, ⟨0, 0⟩, ⟨0, 0⟩⟩
              alpha := Vector.replicate 32 (0, 0, 0), ages := Vector.replicate 32 0, fails := Vector.replicate 32 0
              nextN := 0, selfFail := false, refxBad := false, fits := (⟨0, 0, 0⟩, ⟨0, 0, 0⟩, ⟨0, 0, 0⟩)
              standin := false, lastS := (0, 0, 0), gapFill := false, gapAt := 0, resume := none, selfV := none, cut := false
              failed := false, leaving := none }
    rcp := { edition := 0, release := 0, lastRej := 0, stale := 0 }
    log := { wrcnt := 0, unread := [], tailReq := none, dropcnt := 0, drops := Vector.replicate 32 0, pending := []
             shadow := Vector.replicate 32 none }
    cap := { uses := Vector.replicate 32 none, armed := 0, cdmap := 0, edmap := 0 }
    sec := { life := .blank, pend := none, wipeCnt := 0, trig := 0, nvpend := false, erasing := false }
    hk := { cmd := none, result := 0, dieTemp := 0, warn := false, hot := false, imgOpen := false, imgEnded := false
            badCnt := 0, nextBlk := 0, blocks := [], image := .rom, bootCrc := none, imageLen := 0, mends := []
            restarting := false }
    nvm := { busy := false, dropped := false }
    sup := { vddpUv := false, vddaLow := false }
    digest := Vector.replicate 99 0, frame := 0, free := 0 }

end Sys2Proof.Machine
end

