-- ==== Sys2Proof/Machine/Regs.lean ====
section
/-! DEFINITION. The register store: which words software writes and reads back, their reset values, their RW and LK
bits, and the limits the manual puts on a written value. Words the device maintains are fields of State instead. -/

namespace Sys2Proof.Machine

/-- One stored word: reset value, bits with access RW (or W1S kept as written), bits with access LK. -/
structure RegInfo where
  reset : Word
  rw : Word
  lk : Word
  deriving DecidableEq, Repr

/-- Stored words of a cell drawer n (R56; 03_power_stage.md, 05_recipe_engine.md, 06_grading_and_log.md,
04_measurement_and_leaf.md). -/
def cellReg (n o : Nat) : Option RegInfo :=
  match o with
  | 0x01 => some ⟨1, 1, 0⟩
  | 0x08 => some ⟨BitVec.ofNat 32 (0xC000 + n * 2 ^ 20), 0x03F3F333, 0⟩
  | 0x0B => some ⟨0, 0x3FF, 0⟩
  | 0x20 => some ⟨0x00401640, 0, 0xFFFFFFFF⟩
  | 0x21 => some ⟨0, 0, 0xFFFFFFFF⟩
  | 0x22 => some ⟨0x000F4240, 0, 0xFFFFFFFF⟩
  | 0x23 => some ⟨0x000F4240, 0, 0xFFFFFFFF⟩
  | 0x24 => some ⟨0x00001770, 0, 0xFFFFFFFF⟩
  | 0x25 => some ⟨0xFFFFFC18, 0, 0xFFFFFFFF⟩
  | 0x26 => some ⟨0xFFFFFFFF, 0, 0xFFFFFFFF⟩
  | 0x27 => some ⟨0x7FFFFFFF, 0, 0xFFFFFFFF⟩
  | 0x28 => some ⟨0x0000BB80, 0, 0x0000FFFF⟩
  | 0x29 => some ⟨0x00030D40, 0, 0xFFFFFFFF⟩
  | 0x2A => some ⟨0x40031010, 0, 0xFF0FFFFF⟩
  | 0x2C => some ⟨0, 0, 0xFFFFFFFF⟩
  | 0x2D => some ⟨0x03FF0000, 0, 0x03FF03FF⟩
  | 0x2E => some ⟨0, 0, 0xFFFFFFFF⟩
  | 0x2F => some ⟨1, 0, 3⟩
  | 0x30 => some ⟨0x40000000, 0, 0xFFFFFFFF⟩
  | 0x31 => some ⟨0, 0, 0xFFFFFFFF⟩
  | 0x32 => some ⟨0x40000000, 0, 0xFFFFFFFF⟩
  | 0x33 => some ⟨0, 0, 0xFFFFFFFF⟩
  | 0x34 => some ⟨0x40000000, 0, 0xFFFFFFFF⟩
  | 0x35 => some ⟨0, 0, 0xFFFFFFFF⟩
  | 0x36 => some ⟨0x40000000, 0, 0xFFFFFFFF⟩
  | 0x37 => some ⟨0, 0, 0xFFFFFFFF⟩
  | 0x38 => some ⟨0, 0, 0xFFFFFFFF⟩
  | 0x3C => some ⟨0, 0, 0xFFFFFFFF⟩
  | 0x3D => some ⟨1, 0, 0xFF⟩
  | 0x3E => some ⟨0x0D6B03E8, 0, 0xFFFFFFFF⟩
  | 0x3F => some ⟨0, 0, 0xFFFFFFFF⟩
  | 0x40 => some ⟨0, 7, 0⟩
  | 0x41 => some ⟨0x00640064, 0xFFFFFFFF, 0⟩
  | 0x42 => some ⟨0x00640050, 0xFFFF00FF, 0⟩
  | 0x43 => some ⟨0x00000032, 0xFF, 0⟩
  | 0x44 => some ⟨0x143C0502, 0x3F3F3F0F, 0⟩
  | 0x45 => some ⟨0, 0x33, 0⟩
  | 0x46 => some ⟨0x07D005DC, 0xFFFFFFFF, 0⟩
  | 0x60 => some ⟨0x03E80064, 0xFFFFFFFF, 0⟩
  | 0x72 => some ⟨0x000007D0, 0xFFFF, 0⟩
  | 0x76 => some ⟨1, 0xFFFF, 0⟩
  | _ => none

/-- Stored words of the LEAF drawer: CTRL and its own calibration coefficients (R59, R120). -/
def leafDrawerReg (o : Nat) : Option RegInfo :=
  match o with
  | 0x01 => some ⟨1, 1, 0⟩
  | 0x30 => some ⟨0x40000000, 0, 0xFFFFFFFF⟩
  | 0x31 => some ⟨0, 0, 0xFFFFFFFF⟩
  | 0x32 => some ⟨0x40000000, 0, 0xFFFFFFFF⟩
  | 0x33 => some ⟨0, 0, 0xFFFFFFFF⟩
  | 0x34 => some ⟨0x40000000, 0, 0xFFFFFFFF⟩
  | 0x35 => some ⟨0, 0, 0xFFFFFFFF⟩
  | 0x39 => some ⟨0x0EE6B280, 0, 0xFFFFFFFF⟩
  | 0x3A => some ⟨0x00D1B717, 0, 0xFFFFFFFF⟩
  | 0x3B => some ⟨0x0014F8B6, 0, 0xFFFFFFFF⟩
  | 0x3C => some ⟨0, 0, 0xFFFFFFFF⟩
  | 0x3F => some ⟨0, 0, 0xFFFFFFFF⟩
  | _ => none

/-- CLK, PWR (12_power_and_clock.md). -/
def clkReg (o : Nat) : Option RegInfo :=
  match o with
  | 0x01 => some ⟨0x61, 0xF7, 0⟩
  | 0x0A => some ⟨0, 0xFFFFFFFF, 0⟩
  | 0x0B => some ⟨0, 0xFFFFFFFF, 0⟩
  | 0x0C => some ⟨0, 0x3FF, 0⟩
  | _ => none

/-- PWR: CTRL, GUARD, DWELL, NAPCFG, WAKEEN, LEAFMARGIN. -/
def pwrReg (o : Nat) : Option RegInfo :=
  match o with
  | 0x01 => some ⟨6, 7, 0⟩
  | 0x0A => some ⟨0x3E8, 0xFFFFFF, 0⟩
  | 0x0B => some ⟨0x3C, 0xFFFF, 0⟩
  | 0x0C => some ⟨0xA, 0x7F, 0⟩
  | 0x0E => some ⟨0, 0x3FF, 0⟩
  | 0x11 => some ⟨0x64, 0xFFFF, 0⟩
  | _ => none

/-- IRQ: CTRL, MASKw, PRIOw (09_interrupts.md). -/
def irqReg (o : Nat) : Option RegInfo :=
  if o = 0x01 then some ⟨0, 1, 0⟩
  else if 0x10 ≤ o ∧ o ≤ 0x13 then some ⟨0, 0xFFFFFFFF, 0⟩
  else if 0x20 ≤ o ∧ o ≤ 0x2F then some ⟨0, 0x77777777, 0⟩
  else none

/-- The reset values of FCOL.REACT0 to REACT31 (R305). -/
def reactReset (b : Nat) : Word :=
  match b with
  | 0 | 1 | 2 | 3 | 4 | 8 | 9 | 10 | 11 | 22 | 23 => 0x311
  | 5 | 17 | 18 | 19 | 20 | 21 => 0x411
  | 6 => 0x431
  | 7 | 12 | 13 | 14 | 15 | 16 => 0x221
  | 24 | 25 | 27 => 0x541
  | 26 => 0x441
  | 28 | 29 => 0x331
  | 30 | 31 => 0x111
  | _ => 0

/-- FCOL: SHADOW, INJECT (GO reads 0), REACTb (10_fault_collection.md). -/
def fcolReg (o : Nat) : Option RegInfo :=
  if o = 0x0D then some ⟨0x14, 0, 0xFFFF⟩
  else if o = 0x11 then some ⟨0, 0, 0x7FFC0000⟩
  else if 0x40 ≤ o ∧ o ≤ 0x5F then some ⟨reactReset (o - 0x40), 0, 0x777⟩
  else none

/-- IO24: PCFGk, OUT, SAFEVAL (13_field_io_and_fixture.md). -/
def io24Reg (o : Nat) : Option RegInfo :=
  if 0x08 ≤ o ∧ o ≤ 0x0F then some ⟨0x0004C837, 0xEDFCFFFF, 0⟩
  else if o = 0x11 then some ⟨0, 0xFF, 0⟩
  else if o = 0x12 then some ⟨0, 0, 0xFF⟩
  else none

/-- CHK: CTRL and, per unit, CFG, POLY, INIT, XOROUT, FOLD, REGA, REGB (11_memories_and_checks.md). -/
def chkReg (o : Nat) : Option RegInfo :=
  if o = 0x01 then some ⟨0, 3, 0⟩
  else if 0x10 ≤ o ∧ o ≤ 0x2F then
    match o % 16 with
    | 0 => some ⟨0, 0xFF1FFFFF, 0⟩
    | 1 | 2 | 3 | 4 | 5 => some ⟨0, 0xFFFFFFFF, 0⟩
    | 6 => some ⟨0, 0x000FFFFC, 0⟩
    | _ => none
  else none

/-- BENCH (07_bench_bus.md). -/
def benchReg (o : Nat) : Option RegInfo :=
  match o with
  | 0x01 => some ⟨3, 3, 0⟩
  | 0x20 => some ⟨0x000F4240, 0xFFFFFFFF, 0⟩
  | 0x21 => some ⟨0x000F4240, 0xFFFFFFFF, 0⟩
  | 0x22 => some ⟨0x00B71B00, 0xFFFFFFFF, 0⟩
  | 0x23 => some ⟨0x00CDFE60, 0xFFFFFFFF, 0⟩
  | 0x24 => some ⟨0x0007A120, 0xFFFFFFFF, 0⟩
  | 0x25 => some ⟨0x00DD40A0, 0, 0xFFFFFFFF⟩
  | 0x26 => some ⟨0x0087CDA0, 0xFFFFFFFF, 0⟩
  | 0x27 => some ⟨0x00864700, 0, 0xFFFFFFFF⟩
  | 0x28 => some ⟨0x26162616, 0xFFFFFFFF, 0⟩
  | 0x29 => some ⟨0, 0xFFFFFFFF, 0⟩
  | 0x2A => some ⟨0x177001F4, 0xFFFFFFFF, 0⟩
  | 0x2B => some ⟨0x3C, 0xFFFF, 0⟩
  | 0x2C => some ⟨0x3E8, 0, 0xFFFF⟩
  | 0x2D => some ⟨0, 0xFFFFFFFF, 0⟩
  | 0x2E => some ⟨0, 7, 0⟩
  | _ => none

/-- LEAF (04_measurement_and_leaf.md). -/
def leafReg (o : Nat) : Option RegInfo :=
  match o with
  | 0x01 => some ⟨1, 3, 4⟩
  | 0x08 => some ⟨0x0A05050A, 0xFFFFFFFF, 0⟩
  | 0x09 => some ⟨0xFFFFFFFF, 0xFFFFFFFF, 0⟩
  | 0x0A => some ⟨0x258, 0xFFFF, 0⟩
  | 0x0B => some ⟨0x001E0014, 0xFFFFFFFF, 0⟩
  | 0x11 => some ⟨0, 0, 0xFFFFFFFF⟩
  | 0x13 => some ⟨0x11111111, 0xFFFFFFFF, 0⟩
  | _ => none

/-- HK: MBARG0, MBARG1, DTCFG, MBDATA (15_startup_and_lifecycle.md). -/
def hkReg (o : Nat) : Option RegInfo :=
  if o = 0x09 ∨ o = 0x0A then some ⟨0, 0xFFFFFFFF, 0⟩
  else if o = 0x0D then some ⟨0x30D4, 0xFFFF, 0⟩
  else if 0x40 ≤ o ∧ o ≤ 0x7F then some ⟨0, 0xFFFFFFFF, 0⟩
  else none

/-- The stored word at page p, offset o, if there is one. NVM.WBASE of R357 has no offset in the manual: 0x08, a
number of 128-word blocks (log entry 15). -/
def regInfo (p o : Nat) : Option RegInfo :=
  if 0x20 ≤ p ∧ p ≤ 0x3F then cellReg (p - 0x20) o
  else match p with
  | 0x40 => leafDrawerReg o
  | 0x01 => clkReg o
  | 0x02 => pwrReg o
  | 0x03 => irqReg o
  | 0x04 => fcolReg o
  | 0x05 => if o = 0x01 then some ⟨0, 1, 0x30⟩ else none
  | 0x06 =>
    match o with
    | 0x01 => some ⟨1, 1, 0⟩
    | 0x08 => some ⟨0, 0xFFFF0003, 0⟩
    | 0x0A => some ⟨0x7F, 0x7F, 0⟩
    | _ => none
  | 0x07 =>
    match o with
    | 0x01 => some ⟨1, 1, 0⟩
    | 0x08 => some ⟨0x00500160, 0, 0x007F0177⟩
    | 0x10 => some ⟨0xFFFFFFFF, 0xFFFFFFFF, 0⟩
    | _ => none
  | 0x08 => io24Reg o
  | 0x09 => if o = 0x01 then some ⟨0xF00, 0x00FF0F01, 0⟩ else none
  | 0x0A => chkReg o
  | 0x0B => benchReg o
  | 0x0C => leafReg o
  | 0x0D =>
    match o with
    | 0x01 => some ⟨1, 1, 0⟩
    | 0x0B => some ⟨0x3E8, 0xFFFF, 0⟩
    | _ => none
  | 0x0E =>
    match o with
    | 0x01 => some ⟨1, 1, 0⟩
    | 0x0B => some ⟨0x1800, 0x3FFF, 0⟩
    | 0x0C => some ⟨0x100, 0x3FFF, 0⟩
    | 0x0E => some ⟨0, 0x1FFF, 0⟩
    | _ => none
  | 0x0F =>
    match o with
    | 0x01 => some ⟨1, 1, 0⟩
    | 0x0B => some ⟨0, 0x1F07, 0⟩
    | _ => none
  | 0x10 =>
    match o with
    | 0x01 => some ⟨0xC, 0, 0xE⟩
    | 0x0A => some ⟨0, 0, 0x71⟩
    | _ => none
  | 0x11 => hkReg o
  | 0x12 => if o = 0x08 then some ⟨0, 0x7F, 0⟩ else none
  | _ => none

/-- The key of a word in the register store. -/
def regKey (p o : Nat) : Nat := p * 256 + o

/-- What an unlisted key reads as: the word's reset value. -/
def regDefault (k : Nat) : Word := ((regInfo (k / 256) (k % 256)).map RegInfo.reset).getD 0

/-- REACT codes 6 and 7 set 5 (R309). -/
def reactFix (v : Word) : Word :=
  let c (lo : Nat) := put (min (fld v lo 3) 5) lo
  c 0 ||| c 4 ||| c 8

/-- CFG after R67: RANGE 3 leaves RANGE unchanged, FSW above 32 is 32, PHASE above 32 is PHASE − 33. -/
def cfgFix (old v : Word) : Word :=
  let w := if fld v 4 2 = 3 then setFld v 4 2 (fld old 4 2) else v
  let w := if 32 < fld w 12 6 then setFld w 12 6 32 else w
  if 32 < fld w 20 6 then setFld w 20 6 (fld w 20 6 - 33) else w

/-- The value a write leaves in a stored word, from the old word and the word after RW and LK masking. -/
def regFix (p o : Nat) (old v : Word) : Word :=
  if 0x20 ≤ p ∧ p ≤ 0x3F then
    match o with
    | 0x08 => cfgFix old v
    | 0x22 | 0x23 => if bit v 31 then 0 else v
    | 0x24 | 0x25 | 0x38 => ofI16 (sfld v 0 16)
    | 0x28 => BitVec.ofNat 32 (clampN 1000 52000 (fld v 0 16 / 250 * 250))
    | _ => v
  else if p = 0x04 ∧ 0x40 ≤ o then reactFix v
  else if p = 0x01 ∧ o = 0x0C then BitVec.ofNat 32 ((clampI (-268) 268 (sfld v 0 10) % 1024).toNat)
  else if p = 0x02 ∧ o = 0x0C then BitVec.ofNat 32 (clampN 1 100 (fld v 0 7))
  else if p = 0x0B ∧ o = 0x28 then
    put (clampN 5000 10000 (fld v 16 16)) 16 ||| put (clampN 5000 10000 (fld v 0 16)) 0
  else if p = 0x0D ∧ o = 0x0B then BitVec.ofNat 32 (clampN 10 10000 (fld v 0 16))
  else if p = 0x11 ∧ o = 0x0D then ofI16 (sfld v 0 16)
  else if p = 0x0E ∧ (o = 0x0B ∨ o = 0x0C) then BitVec.ofNat 32 (clampN 1 8192 (fld v 0 14))
  else v

/-- The register store is in canonical form. -/
def Regs.wf (r : List (Nat × Word)) : Bool := sparseWf regDefault 0 r

/-- The word at page p, offset o of the register store. -/
def State.reg (s : State) (p o : Nat) : Word := sparseGet regDefault s.regs (regKey p o)

/-- The stored word set to v as it stands. -/
def State.setReg (p o : Nat) (v : Word) (s : State) : State :=
  { s with regs := sparsePut regDefault (regKey p o) v s.regs }

/-- A field of a stored word as a number. -/
def State.regF (s : State) (p o lo n : Nat) : Nat := fld (s.reg p o) lo n

/-- The stored word of drawer n. -/
def State.chReg (s : State) (n : Nat) (o : Nat) : Word := s.reg (0x20 + n) o

/-- The stored words of page p back at their reset values. -/
def State.resetPage (p : Nat) (s : State) : State :=
  { s with regs := sparseDrop (regKey p 0) (regKey (p + 1) 0) s.regs }

end Sys2Proof.Machine
end

