-- ==== Sys2Proof/Machine/Ops.lean ====
section
/-! DEFINITION. The named operations over the state: common words, STATUS and ERR_CAP, drawers, interrupt latches,
free values, the memory banks, LOCK, gangs. -/

namespace Sys2Proof.Machine

/-! ### Blocks -/

abbrev bSys : Fin 53 := 0
abbrev bClk : Fin 53 := 1
abbrev bPwr : Fin 53 := 2
abbrev bIrq : Fin 53 := 3
abbrev bFcol : Fin 53 := 4
abbrev bLink : Fin 53 := 5
abbrev bMgmt : Fin 53 := 6
abbrev bFix : Fin 53 := 7
abbrev bIo24 : Fin 53 := 8
abbrev bMem : Fin 53 := 9
abbrev bChk : Fin 53 := 10
abbrev bBench : Fin 53 := 11
abbrev bLeaf : Fin 53 := 12
abbrev bRcp : Fin 53 := 13
abbrev bLog : Fin 53 := 14
abbrev bCap : Fin 53 := 15
abbrev bSec : Fin 53 := 16
abbrev bHk : Fin 53 := 17
abbrev bNvm : Fin 53 := 18
abbrev bDigest : Fin 53 := 19

/-- The block of drawer n. -/
def chB (n : Drawer) : Fin 53 := ⟨n.val + 20, by omega⟩

/-- A cell channel's drawer. -/
def dr (n : Chan) : Drawer := n.castSucc

/-- The block whose common words page p holds (R43). -/
def pageBlk (p : Nat) : Option (Fin 53) :=
  if h : p < 20 then some ⟨p, by omega⟩
  else if h : 0x20 ≤ p ∧ p ≤ 0x40 then some ⟨p - 12, by omega⟩
  else none

/-- The page of a block. -/
def blkPage (b : Fin 53) : Nat := if b.val < 20 then b.val else b.val + 12

/-- The STATUS bits a block has conditions for (R39). -/
def statusMask (b : Fin 53) : Word :=
  match b.val with
  | 0 => 0x3
  | 1 => 0x3FF
  | 2 | 3 => 0xF
  | 4 => 0xFFFFFFFF
  | 5 => 0x000F0FFF
  | 6 => 0x7F
  | 7 => 0x3FF
  | 8 => 0x07FFFFFF
  | 9 => 0x1F
  | 10 => 0x707
  | 11 => 0x3FF
  | 12 => 0x7F
  | 13 => 0xF
  | 14 => 0x7
  | 15 => 0xF
  | 16 => 0xF0DF
  | 17 => 0x1F
  | 18 => 0x1
  | 19 => 0
  | _ => 0xFFF

/-- The bits of IRQ_EN: those of STATUS, and SEC.NVPEND and NVM bit 1, which are STATUS conditions software does not
clear (R39). -/
def irqEnMask (b : Fin 53) : Word :=
  match b.val with
  | 16 => 0xF0FF
  | 18 => 0x3
  | _ => statusMask b

/-! ### Common words -/

/-- The common words of block b changed by f. -/
def State.modCom (b : Fin 53) (f : Common → Common) (s : State) : State :=
  { s with com := s.com.set b.val (f s.com[b.val]) b.isLt }

/-- STATUS bits of block b set by hardware (R37). -/
def raise (b : Fin 53) (bits : Word) (s : State) : State :=
  s.modCom b fun c => { c with status := c.status ||| bits }

/-- STATUS bit i of block b set by hardware. -/
def raiseBit (b : Fin 53) (i : Nat) (s : State) : State := raise b (bitW i) s

/-- The block reports an error: ERR_CAP keeps the first one (R41). -/
def capErr (b : Fin 53) (detail : BitVec 23) (s : State) : State :=
  s.modCom b fun c => if c.capValid then c else { c with capValid := true, detail := detail }

/-- `raise` on a condition. -/
def raiseIf (c : Bool) (b : Fin 53) (i : Nat) (s : State) : State := if c then raiseBit b i s else s

/-! ### Drawers -/

/-- Drawer n changed by f. -/
def State.modCh (n : Drawer) (f : Ch → Ch) (s : State) : State :=
  { s with ch := s.ch.set n.val (f s.ch[n.val]) n.isLt }

/-- Drawer of a cell channel. -/
def State.cell (s : State) (n : Chan) : Ch := s.ch[(dr n).val]

/-- Drawer of a cell channel changed by f. -/
def State.modCell (n : Chan) (f : Ch → Ch) (s : State) : State := s.modCh (dr n) f

def State.modSeq (n : Chan) (f : Seq → Seq) (s : State) : State :=
  s.modCell n fun c => { c with seq := f c.seq }

def State.modPs (n : Chan) (f : Stage → Stage) (s : State) : State :=
  s.modCell n fun c => { c with ps := f c.ps }

/-- f applied for each channel of a list, in order. -/
def forChans (l : List Chan) (f : Chan → State → State) (s : State) : State := l.foldl (fun s n => f n s) s

/-- The 32 cell channels in ascending order. -/
def allChans : List Chan := List.finRange 32

/-- The channels whose bit is set. -/
def chansOf (w : Word) : List Chan := allChans.filter fun n => bit w n.val

/-- The word of a set of channels. -/
def chanMask (f : Chan → Bool) : Word := allChans.foldl (fun a n => a ||| putB (f n) n.val) 0

/-! ### Interrupt latches -/

/-- Priority of source i (IRQ.PRIOw). -/
def State.prio (s : State) (i : Nat) : Nat := s.regF 0x03 (0x20 + i / 8) (4 * (i % 8)) 3

/-- An event of pulse source i: its latch sets unless the source is off (R278, R279). -/
def irqPulse (i : Fin 128) (s : State) : State :=
  if s.prio i.val = 0 then s else
    { s with irq := { s.irq with latch := s.irq.latch ||| BitVec.ofNat 128 1 <<< i.val } }

/-! ### Free values -/

/-- The next free bit, and the counter advanced (log entry 3). -/
def freeBit (s : State) : Bool × State := (Config.freeBit s.free, { s with free := s.free + 1 })

/-- The next free word. -/
def freeWord (s : State) : Word × State := (Config.freeWord s.free, { s with free := s.free + 1 })

/-- n free words. -/
def freeWords (n : Nat) (s : State) : List Word × State :=
  ((List.range n).map fun i => Config.freeWord (s.free + i), { s with free := s.free + n })

/-- num / den to nearest, a tie as `Config.tieAway` has it: the manual names no direction (log entry 4). -/
def roundFree (num den : Int) : Int :=
  if den = 0 then 0 else
    let n := if den < 0 then -num else num
    let d := den.natAbs
    let q := roundAway n d
    if 2 * (n.natAbs % d) = d ∧ ¬ Config.tieAway num den then (if 0 ≤ n then q - 1 else q + 1) else q

/-- A natural quotient to nearest, ties as `roundFree`. -/
def roundFreeN (num den : Nat) : Nat := (roundFree num den).toNat

/-! ### Memory banks (R326) -/

/-- Size of a bank in bytes. -/
def bankSize : Bank → Nat
  | .r => 32 * 1024
  | .l => 256 * 1024
  | .c => 128 * 1024
  | .h => 128 * 1024
  | .s => 4 * 1024
  | .nvm => 64 * 1024

/-- What an unlisted byte reads as: 0 in SRAM (start-up zeroes the banks, R338), 0xFF in erased NVM (log entry 9). -/
def bankBlank : Bank → Nat → Byte
  | .nvm, _ => 0xFF
  | _, _ => 0

/-- The bytes of a bank. -/
def Banks.cells (m : Banks) : Bank → List Host.Cell
  | .r => m.r
  | .l => m.l
  | .c => m.c
  | .h => m.h
  | .s => m.s
  | .nvm => m.nvm

/-- A bank's bytes replaced. -/
def Banks.put (m : Banks) (b : Bank) (l : List Host.Cell) : Banks :=
  match b with
  | .r => { m with r := l }
  | .l => { m with l := l }
  | .c => { m with c := l }
  | .h => { m with h := l }
  | .s => { m with s := l }
  | .nvm => { m with nvm := l }

/-- Memory is in canonical form: addresses rise strictly, no entry equals what an unlisted address reads as. -/
def Memory.wf (m : Banks) : Bool :=
  [Bank.r, .l, .c, .h, .s, .nvm].all fun b => sparseWf (bankBlank b) 0 (m.cells b)

/-- One byte of a bank. -/
def State.byte (s : State) (b : Bank) (a : Nat) : Byte := sparseGet (bankBlank b) (s.banks.cells b) a

/-- The bank a check unit's region names (CHK.REGA with SRC = 0). -/
def regionBank (rega : Word) : Option Bank :=
  match fld rega 27 3 with
  | 0 => some .r
  | 1 => some .l
  | 2 => some .c
  | 3 => some .h
  | _ => none

/-- A word of CHK: configuration `o` of unit u. -/
def State.chkReg (s : State) (u : Nat) (o : Nat) : Word := s.reg 0x0A (0x10 + 16 * u + o)

/-- The bank word that a register of a window shows (R44, R197, R357, and the CAP window). -/
def State.windowWord (s : State) (p o : Nat) : Option (Bank × Nat) :=
  if 0x80 ≤ p ∧ p < 0xA0 then some (.r, (p - 0x80) * 1024 + 4 * o)
  else if o < 0x80 then none
  else match p with
  | 0x0E => some (.l, 32 * ((s.regF 0x0E 0x0E 0 13 + (o - 0x80) / 8) % 8192) + 4 * ((o - 0x80) % 8))
  | 0x0F => some (.c, s.regF 0x0F 0x0B 8 5 * 4096 + 512 * s.regF 0x0F 0x0B 0 3 + 4 * (o - 0x80))
  | 0x12 =>
    let a := 512 * s.regF 0x12 0x08 0 7 + 4 * (o - 0x80)
    if 0xE000 ≤ a ∧ a < 0xF000 then none else some (.nvm, a)
  | _ => none

/-- The bank words that a read of n words from page p, offset o, shows. -/
def State.windowWords (s : State) (p o n : Nat) : List (Bank × Nat) := (List.range n).filterMap fun i => s.windowWord p (o + i)

/-- The bank words that a region of registers shows. -/
def State.regionWords (s : State) (u : Nat) : List (Bank × Nat) :=
  let r := s.chkReg u 5
  (List.range (fld r 16 8 + 1 - fld r 24 8)).flatMap fun i =>
    s.windowWords (fld r 24 8 + i) (fld r 8 8) (fld r 0 8 + 1 - fld r 8 8)

/-- A write of the bytes [a, e) of a bank falls in the region unit u scrubs, or in a word that a window of its region shows
(R348). -/
def State.inBankRegion (s : State) (u : Nat) (b : Bank) (a e : Nat) : Bool :=
  let rega := s.chkReg u 5
  if bit (s.chkReg u 0) 24 then
    (s.regionWords u).any fun w => decide (w.1 = b) && decide (a < w.2 + 4) && decide (w.2 < e)
  else
    let lo := fld rega 2 18 * 4
    let hi := lo + fld (s.chkReg u 6) 2 18 * 4
    decide (regionBank rega = some b) && decide (lo < hi) && decide (a < hi) && decide (lo < e)

/-- A pass of a check unit that the write meets is to be discarded (R348). -/
def touchBank (b : Bank) (a e : Nat) (s : State) : State :=
  { s with units := Vector.ofFn fun u =>
      { s.units[u.val] with dirty := s.units[u.val].dirty || s.inBankRegion u.val b a e } }

/-- A master's write of a register word falls in the region unit u scrubs. -/
def State.inRegRegion (s : State) (u : Nat) (p o : Nat) : Bool :=
  let r := s.chkReg u 5
  bit (s.chkReg u 0) 24 && decide (fld r 24 8 ≤ p) && decide (p ≤ fld r 16 8) && decide (fld r 8 8 ≤ o)
    && decide (o ≤ fld r 0 8)

/-- As `touchBank` for a register word. -/
def touchReg (p o : Nat) (s : State) : State :=
  { s with units := Vector.ofFn fun u =>
      { s.units[u.val] with dirty := s.units[u.val].dirty || s.inRegRegion u.val p o } }

/-- Words written with correct parity: none whose bytes meet [a, e) stays bad (R329). -/
def Banks.heal (b : Bank) (a e : Nat) (m : Banks) : Banks :=
  { m with bad := m.bad.filter fun w => !(decide (w.1 = b) && decide (a < w.2 + 4) && decide (w.2 < e)) }

/-- Bytes written from address a upward; bytes past the bank's end do not exist and are dropped. -/
def State.putBytes (b : Bank) (a : Nat) (vs : List Byte) (s : State) : State :=
  let s := touchBank b a (a + vs.length) s
  let cells := sparsePutMany (bankBlank b) a (vs.take (bankSize b - a)) (s.banks.cells b)
  { s with banks := (s.banks.heal b a (a + vs.length)).put b cells }

/-- The 32-bit word at byte address a, least significant byte lowest (log entry 10). -/
def State.mword (s : State) (b : Bank) (a : Nat) : Word :=
  wordLE (s.byte b a) (s.byte b (a + 1)) (s.byte b (a + 2)) (s.byte b (a + 3))

/-- A word written at byte address a. -/
def State.putWord (b : Bank) (a : Nat) (v : Word) (s : State) : State := s.putBytes b a (bytesLE v)

/-- Words written from byte address a upward. -/
def State.putWords (b : Bank) (a : Nat) (vs : List Word) (s : State) : State :=
  s.putBytes b a (vs.flatMap bytesLE)

/-- n words read from byte address a. -/
def State.mwords (s : State) (b : Bank) (a n : Nat) : List Word :=
  (List.range n).map fun i => s.mword b (a + 4 * i)

/-- Every byte from a to below e is written to what an unlisted byte reads as. -/
def State.blankRange (b : Bank) (a e : Nat) (s : State) : State :=
  let s := touchBank b a e s
  { s with banks := (s.banks.heal b a e).put b (sparseDrop a e (s.banks.cells b)) }

/-- The words of [a, e) of a bank whose stored parity is wrong (R329). -/
def State.badIn (s : State) (b : Bank) (a e : Nat) : List (Bank × Nat) :=
  s.banks.bad.filter fun w => decide (w.1 = b) && decide (a < w.2 + 4) && decide (w.2 < e)

/-- The words of NVM in [a, a + n) read without failure (R356). -/
def State.nvmGood (s : State) (a n : Nat) : Bool := decide (s.badIn .nvm a (a + n) = [])

/-- An upset leaves a word with wrong parity (R329). -/
def markBad (w : Bank × Nat) (s : State) : State :=
  if w ∈ s.banks.bad then s else { s with banks := { s.banks with bad := s.banks.bad ++ [w] } }

/-! ### BANK-S and the secure partition (R352, R353; the manual gives no layout: log entry 80) -/

/-- The word that marks an item of BANK-S as there. -/
def secMark : Word := 0x56414C44

/-- An item of BANK-S: its mark at byte address a, then its 32 bytes. -/
def State.secItem (s : State) (a : Nat) : Option (List Byte) :=
  if s.mword .s a = secMark then some ((List.range 32).map fun i => s.byte .s (a + 4 + i)) else none

/-- The fixture authentication key. -/
def State.secKey (s : State) : Option (List Byte) := s.secItem 0

/-- The calibration seal: the digest over the calibration partition. -/
def State.secSeal (s : State) : Option (List Byte) := s.secItem 0x24

/-- The pairing overrides, of which BANK-S holds 1,005. -/
def State.overrides (s : State) : List Word :=
  let n := (s.mword .s 0x48).toNat
  if n ≤ 1005 then s.mwords .s 0x4C n else []

/-- Bytes written to BANK-S and to the secure partition. -/
def State.putSec (a : Nat) (vs : List Byte) (s : State) : State := (s.putBytes .s a vs).putBytes .nvm (0xE000 + a) vs

/-- An item written. -/
def State.putSecItem (a : Nat) (vs : List Byte) (s : State) : State := s.putSec a (bytesLE secMark ++ vs)

/-- One more override. -/
def addOverride (v : Word) (s : State) : State :=
  let l := s.overrides
  if v ∈ l ∨ 1005 ≤ l.length then s
  else (s.putSec 0x48 (bytesLE (BitVec.ofNat 32 (l.length + 1)))).putSec (0x4C + 4 * l.length) (bytesLE v)

/-! ### LOCK (R45 to R50) -/

/-- The OWNER code of a master; 0 for one that cannot hold a lock. -/
def masterOwner : Master → BitVec 2
  | .hostlink => 1
  | .mgmt => 2
  | .hkcore => 3
  | _ => 0

/-- The lock of block b is open for master m. -/
def Common.openFor (c : Common) (m : Master) : Bool := c.lockOpen && decide (masterOwner m ≠ 0) && decide (c.owner = masterOwner m)

def State.openFor (s : State) (b : Fin 53) (m : Master) : Bool := s.com[b.val].openFor m

/-- The lock of block b closes: OPEN and OWNER become 0 (R46, R49). -/
def closeLock (b : Fin 53) (s : State) : State := s.modCom b fun c => { c with lockOpen := false, owner := 0 }

/-- Every lock closes (R49). -/
def closeAllLocks (s : State) : State := { s with com := s.com.map fun c => { c with lockOpen := false, owner := 0 } }

/-- A discarded LK write sets LKDROP (R48). -/
def lkDrop (b : Fin 53) (s : State) : State := s.modCom b fun c => { c with lkDrop := true }

/-! ### Gangs (R86 to R90) -/

/-- CFG of channel n. -/
def State.cfg (s : State) (n : Nat) : Word := s.chReg n 0x08

/-- Group size G from the GANG field of channel n. -/
def State.gangSize (s : State) (n : Nat) : Nat := 2 ^ fld (s.cfg n) 8 2

/-- The aligned group of channel n under its own GANG value. -/
def State.groupOf (s : State) (n : Chan) : List Chan :=
  let g := s.gangSize n.val
  allChans.filter fun k => decide (k.val / g = n.val / g)

/-- Every drawer of the aligned group of n holds the same GANG value. -/
def State.agrees (s : State) (n : Chan) : Bool :=
  (s.groupOf n).all fun k => decide (s.gangSize k.val = s.gangSize n.val)

/-- n belongs to a formed gang. -/
def State.formed (s : State) (n : Chan) : Bool := decide (1 < s.gangSize n.val) && s.agrees n

/-- The channel that holds n's step: the lowest index of a formed gang, else n. -/
def State.leader (s : State) (n : Chan) : Chan :=
  if s.formed n then ((s.groupOf n).head?).getD n else n

/-- n is a non-leader member of a formed gang. -/
def State.member (s : State) (n : Chan) : Bool := s.formed n && decide (s.leader n ≠ n)

/-- The channels a command or trip of n acts on: the formed gang, else n (R89). -/
def State.gangOf (s : State) (n : Chan) : List Chan := if s.formed n then s.groupOf n else [n]

/-- PS_LIVE.GANGERR of channel m: GANG values of an aligned group that holds m disagree (R86). -/
def State.gangErr (s : State) (m : Chan) : Bool :=
  allChans.any fun n => decide (m ∈ s.groupOf n) && !s.agrees n

/-- G of the gang that n leads or runs in. -/
def State.gangG (s : State) (n : Chan) : Nat := if s.formed n then s.gangSize n.val else 1

/-! ### Values in force -/

/-- Profile in force (R87): the leader's. -/
def State.profile (s : State) (n : Chan) : Nat := fld (s.cfg (s.leader n).val) 0 2

/-- Range in force: 0 HIGH, 1 MID, 2 TRICKLE. -/
def State.range (s : State) (n : Chan) : Nat := fld (s.cfg (s.leader n).val) 4 2

/-- Upper end of a profile's window of FSW (R71). -/
def fswMax (profile : Nat) : Nat :=
  match profile with
  | 0 => 20
  | 1 => 8
  | 2 => 32
  | _ => 12

/-- The FSW field that rules channel n: the leader's in a formed gang. -/
def State.fswField (s : State) (n : Chan) : Nat := fld (s.cfg (s.leader n).val) 12 6

/-- FSW_ACT (R71). -/
def State.fswAct (s : State) (n : Chan) : Nat := min (s.fswField n) (fswMax (s.profile n))

/-- PHASE_ACT (R87). -/
def State.phaseAct (s : State) (n : Chan) : Nat :=
  let l := s.leader n
  let p := fld (s.cfg l.val) 20 6
  if s.formed n then
    let g := s.gangSize n.val
    let k := n.val - l.val
    if k = 0 then p else (p + (33 * k + g / 2) / g) % 33
  else p

/-- Full scale of a range for one channel, µA. -/
def rangeFs (range : Nat) : Int :=
  match range with
  | 0 => 40000000
  | 1 => 4000000
  | _ => 50000

/-- Gang full scale of a range (03_power_stage.md): the trickle range does not scale. -/
def State.gangFs (s : State) (n : Chan) (range : Nat) : Int :=
  if range = 2 then rangeFs 2 else rangeFs range * s.gangG n

/-- A positive limit word as its magnitude. -/
def State.limit (s : State) (n : Chan) (o : Nat) : Int := (s.chReg n.val o).toInt

/-- A path conducts: the half-bridge switches or the trickle stage drives FPn (R73). -/
def Stage.conducts (p : Stage) : Bool := p.switching || p.trickleOn

/-! ### Power states and domains (R20, R358 to R360, R434; log entry 34) -/

/-- BOOTSTAGE has reached READY. -/
def State.ready (s : State) : Bool := decide (s.sys.stage = 0x0A)

/-- The device is in DOZE or SLEEP. -/
def State.asleep (s : State) : Bool :=
  match s.pwr.state with
  | .doze => true
  | .sleep => true
  | _ => false

/-- CORE runs: in RUN and NAP. -/
def State.coreOn (s : State) : Bool :=
  match s.pwr.state with
  | .run => true
  | .nap => true
  | _ => false

/-- The channels of half 0 (0 to 15) or 1 (16 to 31). -/
def half (b : Bool) : List Chan := allChans.filter fun n => decide (16 ≤ n.val) == b

/-- A channel runs a TRICKLE step. -/
def State.trickleIn (s : State) (n : Chan) : Bool :=
  match (s.cell n).seq.step with
  | some st => decide ((s.cell n).seq.phase = .active) && decide (fld st.w[0] 0 4 = 9)
  | none => false

/-- The domains of PWR.DOMSTAT that are on in the present stage and power state: from stage 0x09 on all that have not failed
(R358, R360, R434). -/
def State.domains (s : State) : Byte :=
  let b (c : Bool) (i : Nat) : Byte := if c then BitVec.ofNat 8 (2 ^ i) else 0
  if !s.ready && decide (s.sys.stage ≠ 0x09) then
    b (decide (s.sys.stage ≠ 0)) 0 ||| b (decide (5 ≤ s.sys.stage) && decide (s.sys.stage ≠ 0xF0)) 7
  else
    let run := decide (s.pwr.state = .run)
    let nap := decide (s.pwr.state = .nap)
    (b (decide (s.pwr.state ≠ .sleep)) 0 ||| b (run || nap) 1 ||| b (run || nap) 2
      ||| b (run || (nap && (half false).any s.trickleIn)) 3 ||| b (run || (nap && (half true).any s.trickleIn)) 4
      ||| b (!s.io.lpMiss) 5 ||| b run 6 ||| b (run || nap) 7) &&& ~~~ s.pwr.failed

/-- The domains, by their bit of PWR.DOMSTAT. -/
abbrev dHk : Nat := 0
abbrev dMeasA : Nat := 1
abbrev dMeasB : Nat := 2
abbrev dDrvA : Nat := 3
abbrev dDrvB : Nat := 4
abbrev dIo24 : Nat := 5
abbrev dCapt : Nat := 6
abbrev dBarf : Nat := 7

/-- A block of domain d works: the domain is on and clocked (R20, R358). IO24 alone works in DOZE and SLEEP. -/
def State.works (s : State) (d : Nat) : Bool := s.domains.getLsbD d && (decide (d = dIo24) || s.coreOn)

/-- The measurement chains of channel n are in a domain that works. -/
def State.measOn (s : State) (n : Chan) : Bool := s.works (if n.val < 16 then dMeasA else dMeasB)

/-- NAP converts every NAPDIV-th frame since its entry, from a NAPDIV of 4 on (R362; log entry 79). -/
def State.napConverts (s : State) : Bool :=
  let d := s.regF 0x02 0x0C 0 7
  decide (s.pwr.state ≠ .nap) || decide (d < 4) || decide ((s.pwr.napFrames + 1) % d = 0)

/-- The voltage and current chains of channel n convert in the present frame: its domain works, and in NAP it runs a TRICKLE
step or the frame converts (R20, R362). -/
def State.converts (s : State) (n : Chan) : Bool := s.measOn n && (s.napConverts || s.trickleIn n)

/-- The domain of channel n's channel unit has not failed (R360). -/
def State.unitOn (s : State) (n : Chan) : Bool := !s.pwr.failed.getLsbD (if n.val < 16 then dDrvA else dDrvB)

/-- An erase or program of the NVM runs: for the mailbox, or of the secure partition, in RUN (R355, R357). -/
def State.nvmBusy (s : State) : Bool := s.nvm.busy || (s.sec.erasing && decide (s.pwr.state = .run))

/-! ### Calendar -/

/-- Seconds and fraction of the calendar as the words TIME_L and TIME_H show them. -/
def State.timeL (s : State) : Word := s.clk.sec.extractLsb' 0 32
def State.timeH (s : State) : Word := (s.clk.sec.extractLsb' 32 16) ++ s.clk.frac

end Sys2Proof.Machine
end

