-- ==== Sys2Proof/Machine/Slots.lean ====
section
/-! DEFINITION. The capture bank: slot headers, the uses of slots, and the EIS summary (06_grading_and_log.md). -/

namespace Sys2Proof.Machine

/-- Byte address of word w of channel n's slot in BANK-C. -/
def slotAddr (n : Chan) (w : Nat) : Nat := n.val * 4096 + 4 * w

/-- CAP.CTRL.EN. -/
def State.capEn (s : State) : Bool := bit (s.reg 0x0F 0x01) 0

/-- A slot word written. -/
def putSlot (n : Chan) (w : Nat) (v : Word) (s : State) : State := s.putWord .c (slotAddr n w) v

/-- Header word 0 with a data count (R198). -/
def slotHead (kind : BitVec 4) (entry : Fin 1024) (n : Chan) (count : Nat) : Word :=
  put kind.toNat 28 ||| put entry.val 18 ||| put n.val 13 ||| put count 0

/-- A use of n's slot is over: its bit in CDMAP or EDMAP and CDONE or EDONE set (R200). -/
def dropUse (n : Chan) (s : State) : State :=
  match s.cap.uses[n.val] with
  | none => s
  | some u =>
    let eis := decide (u.kind = 3)
    let s := { s with cap := { s.cap with
      uses := s.cap.uses.set n.val none
      cdmap := if eis then s.cap.cdmap else s.cap.cdmap ||| bitW n.val
      edmap := if eis then s.cap.edmap ||| bitW n.val else s.cap.edmap } }
    raiseBit bCap (if eis then 1 else 0) s

/-- A use of n's slot ends, while CAPT is on; else when it is on again (R20, `closeUses`). -/
def endUse (n : Chan) (s : State) : State := if s.works dCapt then dropUse n s else s

/-- A new use of n's slot starts, while CAPT is on: header words 0 to 7 (R20, R198 to R200). With CAP.CTRL.EN = 0 no slot is used.
Word 2 carries the frame number of the first frame of the step, the one after the frame that ends (log entry 11). -/
def startUse (n : Chan) (kind : BitVec 4) (entry : Fin 1024) (w3 : Word) (s : State) : State :=
  if !s.capEn || !s.works dCapt then s else
    let s := (endUse n s).modCell n fun c => { c with dcir := { c.dcir with tail := none } }
    let w2 := put s.clk.frac.toNat 16 ||| put ((s.frame + 1).toNat % 65536) 0
    let s := if bit (s.cap.cdmap ||| s.cap.edmap) n.val then raiseBit bCap 2 s else s
    let s := { s with cap := { s.cap with uses := s.cap.uses.set n.val (some ⟨kind, entry, s.timeL, w2, w3⟩) } }
    s.putWords .c (slotAddr n 0) [slotHead kind entry n 0, s.timeL, w2, w3, 0, 0, 0, 0]

/-- Header word w of the EIS use of n's slot, from the engine's state (R198, R208, R333). -/
def State.headWord (s : State) (n : Chan) (u : SlotUse) (w : Nat) : Word :=
  match w with
  | 0 => slotHead u.kind u.entry n (s.cell n).eis.points.length
  | 1 => u.tl
  | 2 => u.w2
  | 3 => u.w3
  | _ => 0

/-- Where Im changes sign between two adjacent points, the pair; Im = 0 counts as positive, which the manual leaves open
(R210; log entry 84). -/
def signChange : List EisPoint → Option (EisPoint × EisPoint)
  | a :: b :: rest => if decide (a.im < 0) ≠ decide (b.im < 0) then some (a, b) else signChange (b :: rest)
  | _ => none

/-- The drawer summary of a sweep from its completed points (R210). Without a completed point EIS_RLF keeps its value and
COHMIN reads 0: the manual says neither (log entry 79). -/
def eisSummary (npts : Nat) (e : Eis) : Eis :=
  let coh := e.points.foldl (fun m p => min m p.coh) 10000
  let stat := put e.points.length 24 ||| put npts 16 ||| put (if e.points = [] then 0 else coh) 0
  let rlf := match e.points.getLast? with
    | some p => ofI p.re
    | none => e.rlf
  match (if e.spoiled then none else signChange e.points) with
  | some (a, b) =>
    { e with stat := stat, rlf := rlf
             r0 := ofI (a.re + roundFree ((b.re - a.re) * (0 - a.im)) (b.im - a.im))
             f0 := ofI (a.f + roundFree (((b.f : Int) - a.f) * (0 - a.im)) (b.im - a.im)) }
  | none => { e with stat := stat, rlf := rlf, r0 := 0x80000000, f0 := 0 }

/-- NPTS of a sweep descriptor: 0 taken as 1, above 64 as 64 (R204). -/
def eisNpts (d2 : Word) : Nat := clampN 1 64 (fld d2 0 7)

/-- A sweep ends with the points it has (R209, R210): summary, data count, end of the slot use. -/
def endSweep (n : Chan) (s : State) : State :=
  let c := s.cell n
  if !c.eis.running then s else
    match c.seq.step with
    | none => s.modCell n fun c => { c with eis := { c.eis with running := false } }
    | some st =>
      let s := s.modCell n fun c =>
        { c with eis := { eisSummary (eisNpts st.desc[2]) c.eis with running := false, rerun := none, again := [], met := [] } }
      match s.cap.uses[n.val] with
      | some u =>
        if u.kind = 3 then endUse n (putSlot n 0 (slotHead 3 u.entry n c.eis.points.length) s) else s
      | none => s

/-- The point in progress is discarded; it starts again from its settle time (R209). -/
def discardPoint (n : Chan) (s : State) : State :=
  s.modCell n fun c => { c with eis := { c.eis with ms := 0, va := ⟨0, 0⟩, ia := ⟨0, 0⟩, vb := ⟨0, 0⟩, ib := ⟨0, 0⟩ } }

/-- The results of a DCIR step that ends before t_x read invalid (R203). -/
def Dcir.close (d : Dcir) : Dcir :=
  if d.phase = 0 then d
  else
    { d with
        phase := 0
        r1 := if d.done1 then d.r1 else 0x80000000, r2 := if d.done2 then d.r2 else 0x80000000
        stat := setB (setB d.stat 0 (d.done1 && bit d.stat 0)) 1 (d.done2 && bit d.stat 1) }

/-- A capture of n ends, with its use of the slot (R199, R200). -/
def endCapture (n : Chan) (s : State) : State :=
  if !bit s.cap.armed n.val then s
  else
    let s := { s with cap := { s.cap with armed := s.cap.armed &&& ~~~ bitW n.val } }
    match s.cap.uses[n.val] with
    | some u => if u.kind = 1 then endUse n s else s
    | none => s

/-- What follows the end of a DCIR step whose pulse edge has been: inside a frame its bins go on to the frame's end, after
COMPLETE up to the 1,000th, at which the use ends normally (R201; log entries 88 and 90). -/
def Dcir.tailOf (d : Dcir) (inside complete : Bool) : Option Bool :=
  if d.phase = 0 ∨ d.phase = 1 then none
  else if inside then some false
  else if complete && decide (d.bins < 1000) then some true else none

/-- A DCIR step of n ends, and its use of the slot when no bins follow. -/
def endDcir (n : Chan) (inside complete : Bool) (s : State) : State :=
  let uses := match s.cap.uses[n.val] with
    | some u => decide (u.kind = 2)
    | none => false
  let t := if uses && decide ((s.cell n).dcir.phase ≠ 0) then (s.cell n).dcir.tailOf inside complete else none
  let s := s.modCell n fun c => { c with dcir := { c.dcir.close with
    tail := if c.dcir.phase = 0 then c.dcir.tail else t } }
  if uses && (s.cell n).dcir.tail.isNone then endUse n s else s

/-- The bins that followed a step are all there: the use ends. -/
def endTail (n : Chan) (s : State) : State :=
  endUse n (s.modCell n fun c => { c with dcir := { c.dcir with tail := none } })

/-- A use of n's slot that nothing feeds any more ends: its step ended while CAPT was off. -/
def closeUses (n : Chan) (s : State) : State :=
  let c := s.cell n
  match s.cap.uses[n.val] with
  | none => s
  | some u =>
    let fed := match u.kind.toNat with
      | 1 => bit s.cap.armed n.val
      | 2 => decide (c.dcir.phase ≠ 0) || c.dcir.tail.isSome
      | _ => c.eis.running
    if fed then s else endUse n s

/-- BLOCK_RESET of CAPTURE or EIS: every use in progress ends, the steps run on, their results read invalid (R305). -/
def resetCapture (s : State) : State :=
  forChans allChans (fun n s =>
    let s := dropUse n s
    s.modCell n fun c =>
      { c with dcir := if c.dcir.phase = 0 then { c.dcir with tail := none } else
                 { c.dcir with
                   tail := none, spoiled := true, r1 := 0x80000000, r2 := 0x80000000
                   stat := c.dcir.stat &&& 0xFFFFFFFC }
               eis := { c.eis with spoiled := c.eis.spoiled || c.eis.running } }) s

end Sys2Proof.Machine
end

