-- ==== Sys2Proof/Machine/Records.lean ====
section
/-! DEFINITION. Result records and the log ring (06_grading_and_log.md, R187 to R197, R332). -/

namespace Sys2Proof.Machine

/-- DU and DC of a duration in ms (R188). -/
def packDuration (ms : Nat) : Nat × Nat :=
  if ms ≤ 524287 then (0, ms)
  else if ms / 10 ≤ 524287 then (1, ms / 10)
  else if ms / 100 ≤ 524287 then (2, ms / 100)
  else if ms / 1000 ≤ 524287 then (3, ms / 1000)
  else (3, 524287)

/-- ENDV and MINV: (V + 550,000 µV) / 100 µV, saturating (R188). -/
def packV (v : Int) : Nat := (clampI 0 65535 (roundAway (v + 550000) 100)).toNat

/-- ENDI with exponent x upward: M × 10^x (R188). -/
def packIAux (i : Int) : Nat → Nat → Nat
  | x, 0 => put x 13 |>.toNat
  | x, k + 1 =>
    let m := roundAway i (10 ^ x)
    if -4096 ≤ m ∧ m ≤ 4095 then (put x 13 ||| put ((m % 8192).toNat) 0).toNat
    else packIAux i (x + 1) k

/-- ENDI (R188). -/
def packI (i : Int) : Nat := packIAux i 0 8

/-- MAXT: 0.01 °C to °C, rounded towards +∞, saturating at −128 and +127 (R188). -/
def packT (t : Int) : Nat := ((clampI (-128) 127 (-((-t) / 100))) % 256).toNat

/-- The integer part of an accumulator, truncated towards zero (R180, R188). -/
def accInt (a : BitVec 96) : Int := Int.tdiv a.toInt (2 ^ 32)

/-- A 48-bit field, saturating at ±(2⁴⁷ − 1) (R188). -/
def pack48 (x : Int) : Nat := ((clampI (-(2 ^ 47 - 1)) (2 ^ 47 - 1) x) % 2 ^ 48).toNat

/-- The fields of a record before its check value. -/
structure RecordIn where
  ch : Chan
  entry : Fin 1024
  reason : Nat
  ms : Nat
  maxT : Int
  endI : Int
  endV : Int
  minV : Int
  q : Int
  e : Nat
  deriving DecidableEq, Repr

/-- A record with its layout of R187, the timestamp of the present calendar, CRC left 0. -/
def mkRecord (r : RecordIn) (s : State) : Record :=
  let (du, dc) := packDuration r.ms
  let q := pack48 r.q
  { ch := r.ch
    w := #v[put r.ch.val 27 ||| put r.entry.val 17 ||| put r.reason 13 ||| put du 11 ||| put (packT r.maxT) 3
              ||| put (dc / 65536) 0,
            put (dc % 65536) 16 ||| put (packI r.endI) 0,
            put (packV r.endV) 16 ||| put (packV r.minV) 0,
            BitVec.ofNat 32 q,
            put (q / 2 ^ 32) 16 ||| put (r.e / 2 ^ 32) 0,
            BitVec.ofNat 32 r.e,
            s.timeL,
            put s.clk.frac.toNat 16] }

/-- A record formed in the order of R190; it becomes readable later (R196). -/
def pushRecord (r : RecordIn) (s : State) : State :=
  { s with log := { s.log with pending := s.log.pending ++ [mkRecord r s] } }

/-- W7 completed with the check value for sequence number q (R189). -/
def recordWords (w : Vector Word 8) (q : Word) : List Word :=
  let body := (w.toList.take 7).flatMap bytesBE ++ (bytesBE w[7]).take 2
  let fold := [q.extractLsb' 8 8, q.extractLsb' 0 8]
  w.toList.take 7 ++ [(w[7].extractLsb' 16 16) ++ BitVec.ofNat 16 (crc crc16P (body ++ fold))]

/-- UNREAD of channel n (R193). -/
def State.unreadOf (s : State) (n : Chan) : Nat := (s.log.unread.filter (· = n)).length

/-- FILL. -/
def State.fill (s : State) : Nat := s.log.unread.length

/-- HEAD: the slot of the next record (R193). -/
def State.logHead (s : State) : Nat := s.log.wrcnt.toNat % 8192

/-- TAIL in force: the slot of the oldest unread record. -/
def State.logTail (s : State) : Nat := (s.logHead + 8192 - s.fill) % 8192

/-- LOG.THRESH and LOG.QUOTA. -/
def State.logThresh (s : State) : Nat := s.regF 0x0E 0x0B 0 14
def State.logQuota (s : State) : Nat := s.regF 0x0E 0x0C 0 14

/-- A record written at the head, or dropped (R193, R194). -/
def writeRecord (r : Record) (s : State) : State :=
  if !bit (s.reg 0x0E 0x01) 0 then s
  else if s.fill = 8192 ∨ s.logQuota ≤ s.unreadOf r.ch then
    let d := s.log.drops[r.ch.val]
    raiseBit bLog 1 { s with log := { s.log with
      drops := s.log.drops.set r.ch.val (if d = 0xFFFF then d else d + 1)
      dropcnt := satW s.log.dropcnt } }
  else
    let q := s.log.wrcnt
    let s := s.putWords .l (32 * (q.toNat % 8192)) (recordWords r.w q)
    let s : State := { s with log := { s.log with
      wrcnt := q + 1, unread := s.log.unread ++ [r.ch]
      shadow := s.log.shadow.set r.ch.val (some (q, r)) } }
    raiseIf (decide (s.fill = s.logThresh)) bLog 0 s

/-- The oldest formed record becomes readable (R196). -/
def readableOne (s : State) : State :=
  match s.log.pending with
  | [] => s
  | r :: rest => writeRecord r { s with log := { s.log with pending := rest } }

/-- Every formed record becomes readable: before the next frame end at the latest (R196). -/
def flushRecords (s : State) : State :=
  let p := s.log.pending
  p.foldl (fun s r => writeRecord r s) { s with log := { s.log with pending := [] } }

/-- A written LOG.TAIL takes effect, clamped to the range from the present tail to HEAD (R195). The present tail itself passes no
record, also where the ring is full and HEAD has the same index: the manual leaves that open (log entry 79). -/
def applyTail (s : State) : State :=
  match s.log.tailReq with
  | none => s
  | some t =>
    let passed := min ((t.toNat + 8192 - s.logTail) % 8192) s.fill
    { s with log := { s.log with tailReq := none, unread := s.log.unread.drop passed } }

end Sys2Proof.Machine
end

