-- ==== Sys2Proof/Machine/Broker.lean ====
section
/-! DEFINITION. The BENCH energy broker: contributions, admission, the queue and the trim (07_bench_bus.md). -/

namespace Sys2Proof.Machine

/-- BENCH configuration words as signed numbers. -/
def State.benchI (s : State) (o : Nat) : Int := (s.reg 0x0B o).toInt

/-- BENCH.CTRL.EN: admission limits and k_p active. -/
def State.brokerEn (s : State) : Bool := bit (s.reg 0x0B 0x01) 0

/-- The BENCH-side value of a cell-side power, rounded to nearest mW (R215). -/
def State.benchSide (s : State) (p : Int) : Int :=
  if 0 ≤ p then roundFree (p * 10000) (s.regF 0x0B 0x28 16 16) else roundFree (p * s.regF 0x0B 0x28 0 16) 10000

/-- The BENCH-side value of an entry's estimate; the reservation is HRES_P as it stands (R216, R227). -/
def State.entryBench (s : State) (x : QEntry) : Int := if x.idx.val < 32 then s.benchSide x.est else s.benchI 0x2D

/-- e_BENCH of an entry, a limit in its place where the estimate alone exceeds one (R218, R222). -/
def State.benchEst (s : State) (x : QEntry) : Int := clampI (-(s.benchI 0x21)) (s.benchI 0x20) (s.entryBench x)

/-- VB lies below V_UVW: import is held, and LIVE.BUVW reads 1 (R224). None is low before one has been published. -/
def State.uvwLow (s : State) : Bool :=
  match s.bench.vbUse with
  | some v => decide (v < s.benchI 0x26)
  | none => false

/-- LIVE.BUVW follows VB and V_UVW; a fall below V_UVW is flagged (R242). -/
def seeUvw (s : State) : State :=
  raiseIf (s.uvwLow && !s.bench.buvw) bBench 6 { s with bench := { s.bench with buvw := s.uvwLow } }

/-- The bus voltage the rules of the chapter use from here on, µV (R214, R242). -/
def useVb (v : Int) (s : State) : State := seeUvw { s with bench := { s.bench with vbUse := some v } }

/-- R222 applies to the entry. -/
def State.oversize (s : State) (x : QEntry) : Bool :=
  let b := s.entryBench x
  decide (s.benchI 0x20 < b) || decide (b < -(s.benchI 0x21))

/-- R_H (R216). -/
def State.resH (s : State) : Int := if s.bench.granted then s.benchI 0x2D else 0

/-- PNET from the contributions as last formed (R216). -/
def State.pnet (s : State) : Int :=
  allChans.foldl (fun a n => a + (s.cell n).cval) 0 + s.benchI 0x29 + s.resH

/-- PCHG and PDIS: sums of the positive and of the negative contributions (R216). -/
def State.pchg (s : State) : Int := allChans.foldl (fun a n => a + max 0 (s.cell n).cval) 0
def State.pdis (s : State) : Int := allChans.foldl (fun a n => a + min 0 (s.cell n).cval) 0

/-- An entry with e_BENCH > 0 that R224 holds back. -/
def State.heldBack (s : State) (x : QEntry) : Bool := s.uvwLow && decide (0 < s.benchEst x)

/-- Entry x ranks ahead of entry y (R220). -/
def ranksAhead (x y : QEntry) : Bool :=
  if x.prio ≠ y.prio then decide (y.prio < x.prio)
  else if x.arrived ≠ y.arrived then decide (x.arrived < y.arrived)
  else decide (x.idx < y.idx)

/-- x placed in a queue already in rank order. -/
def insertRank (x : QEntry) : List QEntry → List QEntry
  | [] => [x]
  | y :: rest => if ranksAhead y x then y :: insertRank x rest else x :: y :: rest

/-- The queue in rank order. -/
def rankOrder (q : List QEntry) : List QEntry := q.foldr insertRank []

/-- PNET as R218 takes it for an entry: without the channel's own contribution where its running step is replaced. -/
def State.pnetWithout (s : State) (x : QEntry) : Int :=
  if h : x.idx.val < 32 then (if x.replaces then s.pnet - (s.cell ⟨x.idx.val, h⟩).cval else s.pnet) else s.pnet

/-- R218: the entry fits. -/
def State.fits (s : State) (x : QEntry) : Bool :=
  let p := s.pnetWithout x + s.benchEst x
  decide (-(s.benchI 0x21) ≤ p) && decide (p ≤ s.benchI 0x20)

/-- R218: the entry relieves. -/
def State.relieves (s : State) (x : QEntry) : Bool :=
  let p := s.pnetWithout x
  decide ((p + s.benchEst x).natAbs < p.natAbs)

/-- The entry's estimate counts from its admission (R215, R216, R227). -/
def admitEntry (x : QEntry) (s : State) : State :=
  if h : x.idx.val < 32 then
    s.modCell ⟨x.idx.val, h⟩ fun c =>
      { c with contr := .est x.est (if s.oversize x then some (s.benchEst x) else none) none, cval := s.benchEst x }
  else { s with bench := { s.bench with granted := true } }

/-- IMPOVER and EXPOVER (R240), and LIVE's PNET as a number. -/
def noteNet (s : State) : State :=
  let s := { s with bench := { s.bench with net := s.pnet, chg := s.pchg, dis := s.pdis } }
  let s := raiseIf (decide (s.benchI 0x20 < s.bench.net)) bBench 7 s
  raiseIf (decide (s.bench.net < -(s.benchI 0x21))) bBench 8 s

/-- A step's setpoint applies: its estimate stands up to the second frame end after it, `left` more (R215). -/
def estApplies (left : Nat) (n : Chan) (s : State) : State :=
  s.modCell n fun c => match c.contr with
    | .est e l _ => { c with contr := .est e l (some left) }
    | _ => c

/-- Entries leave the queue: the one of channel index i (R223). -/
def withdraw (i : Drawer) (s : State) : State :=
  { s with bench := { s.bench with queue := s.bench.queue.filter fun x => decide (x.idx ≠ i) } }

/-- The request is admitted in the cycle in which it arrives (R219, R224, R239). -/
def State.admitsNow (s : State) (x : QEntry) : Bool :=
  !s.heldBack x &&
    (!s.brokerEn || (s.fits x &&
      (s.relieves x || s.bench.queue.all fun y => s.heldBack y || !ranksAhead y x)))

/-- A new request (R219): admitted at once, or queued. Answers whether it was admitted. -/
def request (x : QEntry) (s : State) : Bool × State :=
  let s := raiseIf (s.oversize x) bBench 3 s
  if s.admitsNow x then (true, noteNet (admitEntry x s))
  else (false, raiseBit bBench 0 { s with bench := { s.bench with queue := s.bench.queue ++ [x] } })

/-- The first entry the evaluation admits: the highest-ranked one that fits, or one that fits and relieves; entries
R224 holds back count as not in the queue (R221, R224). While CTRL.EN is 0 each evaluation admits what is queued; the write of
EN itself admits nothing (log entry 97). -/
def State.pick (s : State) (first : Bool) : List QEntry → Option QEntry
  | [] => none
  | x :: rest =>
    if s.heldBack x then State.pick s first rest
    else if !s.brokerEn || (s.fits x && (first || s.relieves x)) then some x
    else State.pick s false rest

/-- A change of the trim of one channel's reference (R230, R231): `k` is in units of 1/65,536. -/
def State.k (s : State) : Nat := if s.bench.ovForce then 0 else min s.bench.kv s.bench.kp

/-- Channel n takes part in what BENCH does: its half-bridge carries the current. A channel in the TRICKLE range takes none
(07_bench_bus.md, R72). -/
def State.onBench (s : State) (n : Chan) : Bool := decide (s.range n ≠ 2) || (s.cell n).ps.switching

/-- The loop of channel n, in discharge at k < 1, holds (R230). -/
def State.loopHeld (s : State) (n : Chan) : Bool :=
  decide ((s.cell n).ps.iref < 0) && decide (s.k < 65536) && s.onBench n

/-- The reference the current loop of channel n regulates to: the total of its gang, which a SAFE ramp lowers, times k where it
is negative (R98, R230), shared by the phases (R87), each within its own limits (R88), µA. The leader's trickle stage regulates
the total, with which the members have no part (R87). -/
def State.loopRef (s : State) (n : Chan) : Rat :=
  let p := (s.cell (s.leader n)).ps
  let x : Rat := (p.iref : Rat)
  let x := if x < 0 && s.onBench n then x * ((s.k : Int) : Rat) / 65536 else x
  if s.gangG n ≤ 1 then x
  else if s.range n = 2 && !(s.cell n).ps.switching then (if s.member n then 0 else x)
  else
    let y := x / ((s.gangG n : Int) : Rat)
    max (-(s.limit n 0x23) : Rat) (min (s.limit n 0x22 : Rat) y)

/-- The trim of channel n follows its reference and k; a start of a trim is flagged (R231). -/
def retrim (n : Chan) (s : State) : State :=
  let on := s.loopHeld n
  if on && !(s.cell n).trimmed then
    let s := s.modCell n fun c => { c with trimmed := true, eis := { c.eis with thr := true } }
    let s := { s with bench := { s.bench with thrlog := s.bench.thrlog ||| bitW n.val } }
    raiseBit bBench 1 (raiseBit (chB (dr n)) 11 s)
  else s.modCell n fun c => { c with trimmed := on }

/-- Every channel's trim follows a change of k. -/
def retrimAll (s : State) : State := forChans allChans retrim s

/-- The current reference of one channel set (µA, after R81, before the trim). -/
def setIref (n : Chan) (i : Int) (s : State) : State := retrim n (s.modPs n fun p => { p with iref := i })

/-- The voltage factor from the filtered bus voltage: clamp of (V_THROTTLE + V_THRBAND − V_B) / V_THRBAND (R228). -/
def State.kvOf (s : State) (vb : Int) : Nat :=
  let band := max 10000 (s.benchI 0x24)
  (clampI 0 65536 (roundFree ((s.benchI 0x23 + band - vb) * 65536) band)).toNat

/-- The filtered bus voltage takes a value: k_v follows it, and a condition that no longer holds ends (R228, R232,
R233). While the substitute of R214 is in use, that is the voltage an event of the chapter brings. -/
def setVb (vb : Int) (s : State) : State :=
  let ov := s.bench.bov && decide (s.benchI 0x25 < vb)
  retrimAll { s with bench := { s.bench with
    vbf := some vb, kv := s.kvOf vb, bov := ov, ovForce := ov, buv := s.bench.buv && decide (vb < s.benchI 0x27) } }

/-- U of R229 in units of 10⁻¹³ mW: ETA_D × V × I of all discharging channels at their untrimmed references. -/
def State.uPower (s : State) : Int :=
  allChans.foldl (fun a n =>
    let c := s.cell n
    if c.ps.iref < 0 && !s.member n && s.onBench n
    then a + s.regF 0x0B 0x28 0 16 * c.fv * c.ps.iref else a) 0

/-- The export factor target k_t (R229). -/
def State.ktOf (s : State) : Nat :=
  let u := s.uPower.natAbs
  if u = 0 then 65536
  else (clampI 0 65536 (roundFree ((s.benchI 0x21 + s.bench.chg + s.benchI 0x29 + s.resH) * 65536 * 10 ^ 13) u)).toNat

/-- k_p follows k_t (R229), or is held at 1 with CTRL.EN = 0 (R239). -/
def updateKp (s : State) : State :=
  let kt := s.ktOf
  let kp := if !s.brokerEn then 65536 else if kt < s.bench.kp then kt else min kt (s.bench.kp + 1024)
  retrimAll { s with bench := { s.bench with kp := kp } }

/-- A queued entry has waited longer than QWAIT (R225). -/
def State.stalls (s : State) (x : QEntry) : Bool :=
  let w := s.regF 0x0B 0x2B 0 16
  decide (w ≠ 0) && decide (1000 * w < x.waited)

end Sys2Proof.Machine
end

