-- ==== Sys2Proof/Machine/Channel.lean ====
section
/-! DEFINITION. The fields of a step, and what every command and reaction does to a channel: its STATE, the end of its
step, SAFE, hard stops, the ramp to zero and gangs (03_power_stage.md, 05_recipe_engine.md). Operands and masters play no part
here. -/

namespace Sys2Proof.Machine

/-! ### Fields of a step -/

def Step.typ (st : Step) : Nat := fld st.w[0] 0 4
def Step.profile (st : Step) : Nat := fld st.w[0] 4 2
/-- The range a step runs in: a TRICKLE step runs in TRICKLE whatever its field holds (R145). -/
def Step.range (st : Step) : Nat := if st.typ = 9 then 2 else fld st.w[0] 6 2
def Step.log (st : Step) : Bool := bit st.w[0] 8
def Step.capt (st : Step) : Bool := bit st.w[0] 9
def Step.prio (st : Step) : Nat := fld st.w[0] 10 3
def Step.fc (st : Step) : Nat := fld st.w[0] 13 4
def Step.cont (st : Step) : Bool := bit st.w[0] 17
def Step.keepPk (st : Step) : Bool := bit st.w[0] 18
def Step.capZ (st : Step) : Bool := bit st.w[0] 19
/-- w1 to w3 as signed numbers. -/
def Step.w1 (st : Step) : Int := st.w[1].toInt
def Step.w2 (st : Step) : Int := st.w[2].toInt
/-- LOOP, JUMP, MARK and END. -/
def Step.control (st : Step) : Bool := decide (st.typ = 10 ∨ st.typ = 11 ∨ st.typ = 13 ∨ st.typ = 14)
/-- PROOF and WAIT leave the cell open. -/
def Step.open (st : Step) : Bool := decide (st.typ = 0 ∨ st.typ = 12)
/-- The step sends the broker a start request (R169). -/
def Step.requests (st : Step) : Bool := !st.open && decide (st.range ≠ 2)
/-- The point interval of PROOF and TRICKLE, ms (R145). -/
def Step.interval (st : Step) : Nat := if st.typ = 9 then fld st.w[3] 0 31 else st.w[3].toNat
/-- The step lets the device leave RUN (R159). -/
def Step.sleeps (st : Step) : Bool :=
  decide (st.typ = 12) || (decide (st.typ = 0 ∨ st.typ = 9) && decide (st.interval ≠ 0))

/-- The running step of channel n. -/
def State.step (s : State) (n : Chan) : Option Step := (s.cell n).seq.step

/-- STATE as a code (R56). -/
def ChState.code : ChState → Nat
  | .idle => 0
  | .armed => 1
  | .run => 2
  | .hold => 3
  | .safe => 4
  | .fault => 5
  | .done => 6

/-- STATUS bits that a change to a state sets: STATECHG and the state's own bit (R177). -/
def ChState.statusBits : ChState → Word
  | .done => 0x006
  | .hold => 0x00A
  | .safe => 0x102
  | .fault => 0x202
  | _ => 0x002

/-- STATE of one channel set; a change sets its STATUS bits (R177). -/
def setStateOne (n : Chan) (st : ChState) (s : State) : State :=
  if (s.cell n).seq.state = st then s
  else raise (chB (dr n)) st.statusBits (s.modSeq n fun q => { q with state := st })

/-- STATE of a channel, and of every member of its gang, set (R90). -/
def setState (n : Chan) (st : ChState) (s : State) : State := forChans (s.gangOf n) (setStateOne · st) s

/-- PS_EVT bits set, with STATUS.PSEVT (R101, R177). -/
def psEvt (n : Chan) (bits : Word) (s : State) : State :=
  raiseBit (chB (dr n)) 7 (s.modPs n fun p => { p with evt := p.evt ||| bits })

/-- FSWCLAMP is set where the frequency in force is determined while FSW lies outside the window (R71). -/
def noteFsw (n : Chan) (s : State) : State :=
  if fswMax (s.profile n) < s.fswField n then psEvt n (bitW 16) s else s

/-- ILOOP, OLOOP and BURST of a profile (R79). -/
def profileTuning (profile : Nat) : Word × Word × Word :=
  match profile with
  | 0 => (0x00640050, 50, 0x07D005DC)
  | 1 => (0x00140014, 20, 0x07D005DC)
  | 2 => (0x01F400C8, 100, 0x07D005DC)
  | _ => (0x00320032, 30, 0x07D005DC)

/-- The tuning words of channel n reloaded, unless TUNE_CTRL.KEEP = 1 (R79). -/
def loadTuning (n : Chan) (s : State) : State :=
  if bit (s.chReg n.val 0x40) 0 then s else
    let (il, ol, bu) := profileTuning (s.profile n)
    ((s.setReg (0x20 + n.val) 0x42 il).setReg (0x20 + n.val) 0x43 ol).setReg (0x20 + n.val) 0x46 bu

/-- Burst operation is allowed: FRUGAL in force and TUNE_CTRL.BURST_OFF = 0 (R85). -/
def State.burstOk (s : State) (n : Chan) : Bool := decide (s.profile n = 3) && !bit (s.chReg n.val 0x40) 2

/-- Burst operation ends where it is not allowed; it begins again only below BIN (R85). -/
def leaveBurst (n : Chan) (s : State) : State := if s.burstOk n then s else s.modPs n fun p => { p with burst := false }

/-- A change of CFG words by f: a channel whose profile in force changes reloads its tuning and determines its
frequency again, as does one whose gang forms or dissolves (R71, R79, R87). -/
def changeCfg (f : State → State) (s : State) : State :=
  let t := f s
  forChans allChans (fun n t =>
    let t := if t.profile n ≠ s.profile n then leaveBurst n (loadTuning n t) else t
    if t.profile n ≠ s.profile n ∨ t.formed n ≠ s.formed n ∨ t.leader n ≠ s.leader n then noteFsw n t else t) t

/-- Both paths carry current: a handover, or the ramps that end it (R77). -/
def Stage.both (p : Stage) : Bool := p.switching && p.trickleOn

/-- The samples of the present frame up to sample k came over the present paths; up to t_a of R75 over the half-bridge
alone. -/
def Stage.markPath (k : Nat) (p : Stage) : Stage :=
  if !p.conducts then p
  else match p.enable with
    | some a => { p with was := p.was ++ [(min a k, p.src, false), (k, p.src, p.switching)] }
    | none => { p with was := p.was ++ [(k, p.src, p.both)] }

/-- The paths of one channel stop after sample k of the frame; current flowed in it (R215). -/
def Stage.stoppedAt (k : Nat) (p : Stage) : Stage :=
  { p.markPath k with
      switching := false, trickleOn := false, rsw := false, ramp := false, toZero := false, burst := false
      fold := false, limclamp := false, iref := 0, want := 0, enable := none, flowed := p.flowed || p.conducts || p.ramp }

/-- A path of one channel has stopped. No command says at which sample a path stops: the frame's samples keep the source they
had (log entry 85). -/
def Stage.stopped (p : Stage) : Stage := p.stoppedAt 50

/-- The paths of one channel stop at once: HGn and LGn low, trickle stage off (R100). -/
def stopPaths (n : Chan) (s : State) : State :=
  retrim n (s.modPs n fun p => { p.stopped with toFault := p.toFault })

/-- The half-bridge of a channel stops below 0.3 V, whatever switch or handover it takes part in; a trickle stage goes on
(R64). -/
def stopHalf (n : Chan) (s : State) : State :=
  let k := (s.cell n).meas.got.length
  if !(s.cell n).ps.switching then s
  else if (s.cell n).ps.trickleOn then s.modPs n fun p =>
    { p.markPath k with switching := false, rsw := false, burst := false, enable := none, src := 2 }
  else retrim n (s.modPs n (Stage.stoppedAt k))

/-- A hard stop of a channel and its gang (R89, R100). -/
def hardStop (n : Chan) (s : State) : State :=
  forChans (s.gangOf n) (fun k s => stopPaths k (s.modPs k fun p => { p with toFault := false })) s

/-- The current of a channel and its gang ramps to 0 at ILOOP.SLEW and its paths then stop; nothing runs where nothing
conducts (R164). The demand of 0 is one that the clamp of R81 does not alter. -/
def rampToZero (n : Chan) (s : State) : State :=
  forChans (s.gangOf n) (fun k s => s.modPs k fun p =>
    if p.conducts then { p with toZero := true, limclamp := false, want := 0, enable := none } else { p with rsw := false }) s

/-- The contribution after a STOP, or an entry to SAFE or FAULT, is the measured value while current flows (R215). -/
def decayContr (n : Chan) (s : State) : State :=
  s.modCell n fun c => if c.contr = .none then c else { c with contr := .decay }

/-- The base current of a DCIR step has lasted up to the window of V0, the 10 ms before the pulse edge (R202). -/
def Ch.inV0 (c : Ch) : Bool :=
  match c.seq.step with
  | some st => decide (c.dcir.phase = 1) && decide (c.seq.phase = .active) && !c.ps.rsw
      && decide ((50 * fld st.w[3] 0 16 : Nat) ≤ c.seq.levelT + (c.meas.got.length : Int) + 500)
  | none => false

/-- PAUSE, HOLD or SAFE meets a DCIR measurement between the start of the V0 window and t_x (R203). -/
def spoilDcir (n : Chan) (s : State) : State :=
  s.modCell n fun c =>
    if c.dcir.phase = 2 ∨ c.inV0 then { c with dcir := { c.dcir with spoiled := true } } else c

/-- The queued request of channel n is withdrawn (R223). -/
def withdrawCh (n : Chan) (s : State) : State := withdraw (dr n) s

/-- Restart of the qualification of every word (R152, R159). -/
def clearCounts (q : Seq) : Seq := { q with terms := q.terms.map fun t => { t with count := 0 } }

/-- The record of a step that ended, described by the frame that ends now (R187, R190). -/
def stepRecord (n : Chan) (o : Owed) (s : State) : State :=
  if !o.log then s else
    let c := s.cell n
    pushRecord { ch := n, entry := o.entry, reason := o.reason.toNat, ms := c.seq.stepT
                 maxT := c.seq.maxT.getD c.ftemp, endI := c.fi, endV := c.fv, minV := c.seq.minV.getD c.fv
                 q := accInt c.tot.stepQ, e := pack48 (accInt c.tot.stepE) } s

/-- The running step of channel n ends with a reason (R153, R165, R177). `boundary`: at the end of the frame, whose
record is formed now; else inside a frame, whose record is owed at that frame's end (R182, log entry 12), up to which its
capture and the bins of its slot go on (R199, R201; log entry 88).
Without a step only the reason changes. -/
def endStep (n : Chan) (reason : Byte) (tw : Nat) (boundary : Bool) (s : State) : State :=
  match (s.cell n).seq.step with
  | none => s.modSeq n fun q => { q with reason := reason }
  | some st =>
    let s := endDcir n (!boundary) (decide (reason = 2)) (endSweep n (if boundary then endCapture n s else s))
    let o : Owed := ⟨st.entry, reason, (bit st.w[0] 8 && decide (reason ≠ 10)) || decide (reason = 6)⟩
    let s := s.modSeq n fun q =>
      { clearCounts q with
          reason := reason, tw := BitVec.ofNat 2 tw, endEntry := st.entry, step := none, phase := .off, cvph := false
          levelB := false, done := false, owed := if boundary then none else some o }
    let s := raiseBit (chB (dr n)) 0 s
    if boundary then stepRecord n o s else s

/-- The SAFE ramp of one channel: the reference is frozen and falls to 0; no ramp where nothing conducts (R98). A
range switch is abandoned (R99). -/
def startRamp (toFault : Bool) (n : Chan) (s : State) : State :=
  s.modPs n fun p =>
    if p.conducts then
      { p with
          ramp := true, i0 := p.iref, rsw := false, toZero := false, toFault := toFault, moved := true, enable := none
          limclamp := false, want := 0 }
    else { p with rsw := false, toZero := false, toFault := false }

/-- What leaving ARMED, RUN, HOLD or DONE for SAFE or FAULT ends: the step, the request, a measurement, a load. -/
def quit (n : Chan) (reason : Option Byte) (boundary : Bool) (s : State) : State :=
  let s := spoilDcir n s
  let s := match reason with
    | some r => endStep n r (s.cell n).seq.tw.toNat boundary s
    | none => s
  let s := withdrawCh n (decayContr n s)
  s.modSeq n fun q => { q with next := .none, phase := .off }

/-- The half-bridge and the trickle stage of a channel and its gang are off: the end of a SAFE ramp (R98). -/
def endRamp (n : Chan) (s : State) : State :=
  let l := s.leader n
  let g := s.gangOf l
  let any := g.any fun k => (s.cell k).ps.ramp
  if !any then s else
    let fault := g.any fun k => (s.cell k).ps.toFault
    let s := forChans g (fun k s => stopPaths k (s.modPs k fun p => { p with toFault := false })) s
    if fault then setState l .fault s else s

/-- The domain of channel n's half is on (R358). -/
def State.driveOn (s : State) (n : Chan) : Bool := s.domains.getLsbD (if n.val < 16 then dDrvA else dDrvB)

/-- A half is off in NAP once no channel of it runs a TRICKLE step: nothing then drives its paths, which stop at once, a SAFE ramp
among them (R358; the rules of R98 and R164 name no state of the domain: log entry 98). -/
def stopOff (s : State) : State :=
  if s.pwr.state ≠ .nap then s
  else forChans allChans (fun n s =>
    if s.driveOn n || !((s.cell n).ps.conducts || (s.cell n).ps.ramp) then s
    else stopPaths n (endRamp n s)) s

/-- A channel and its gang enter SAFE under R98. A channel in SAFE or FAULT keeps its state and a running ramp is not
restarted (R99, R311). `reason`: the end reason, none where a termination word caused the entry (R177).
`toFault`: the ramp ends in FAULT (R153, R166). -/
def safeWith (reason : Option Byte) (toFault boundary : Bool) (n : Chan) (s : State) : State :=
  let l := s.leader n
  match (s.cell l).seq.state with
  | .safe => s
  | .fault => s
  | _ =>
    let s := quit l reason boundary s
    let s := stopOff (forChans (s.gangOf l) (startRamp toFault) s)
    if toFault && !((s.gangOf l).any fun k => (s.cell k).ps.ramp) then setState l .fault s else setState l .safe s

/-- An entry to SAFE with REASON = SAFE. -/
def enterSafe (n : Chan) (s : State) : State := safeWith (some 4) false false n s

/-- Every cell channel enters SAFE (R30, R312). -/
def allSafe (s : State) : State := forChans allChans enterSafe s

/-- The state is ARMED, RUN or HOLD. -/
def ChState.live : ChState → Bool
  | .armed => true
  | .run => true
  | .hold => true
  | _ => false

/-- A hard stop that ends in FAULT (R93, R160): also from SAFE (R96). In IDLE, DONE and FAULT the state stays. -/
def faultStop (n : Chan) (s : State) : State :=
  let l := s.leader n
  let st := (s.cell l).seq.state
  let s := hardStop l s
  if st.live || decide (st = .safe) then setState l .fault (quit l (some 5) false s) else s

/-- VDDP undervoltage: a hard stop of every channel; one in ARMED, RUN or HOLD enters SAFE (R94). -/
def vddpStop (s : State) : State :=
  forChans allChans (fun n s =>
    let fault := (s.cell n).ps.ramp && (s.cell n).ps.toFault
    let s := stopPaths n (s.modPs n fun p => { p with toFault := false })
    if fault then setState n .fault s
    else if (s.cell n).seq.state.live then enterSafe n s else s) s

/-- ESTOP# is asserted, or the management stop latch is set, which acts as ESTOP# (R30, R428). -/
def State.estop (s : State) : Bool := s.link.estop.lost || !s.link.estop.sent

/-- The ESTOP check of R161. -/
def State.estopBlocks (s : State) : Bool := s.estop || s.mgmt.stop

/-- A SAFE ramp runs on channel n or in its gang. -/
def State.ramping (s : State) (n : Chan) : Bool := (s.gangOf n).any fun k => (s.cell k).ps.ramp

/-- Some present cell channel's STATE is SAFE or FAULT (R318). -/
def State.anySafe (s : State) : Bool :=
  allChans.any fun n => decide ((s.cell n).seq.state = .safe) || decide ((s.cell n).seq.state = .fault)

/-- R174: a gang that has come to agree takes SAFE or FAULT from any member, else the leader's state. -/
def formGang (n : Chan) (s : State) : State :=
  if !s.formed n then s else
    let g := s.gangOf n
    let st := if g.any fun k => decide ((s.cell k).seq.state = .fault) then .fault
      else if g.any fun k => decide ((s.cell k).seq.state = .safe) then .safe
      else (s.cell (s.leader n)).seq.state
    forChans g (setStateOne · st) s

end Sys2Proof.Machine
end

