-- ==== Sys2Proof/Machine/BlockOps.lean ====
section
/-! DEFINITION. Operations of the blocks that the fault collector resets or stops: LEAF, IO24, fixture port, host link,
check units, housekeeping core, BENCH and broker, recipe engine, measurement chains (R305). -/

namespace Sys2Proof.Machine

/-! ### LEAF -/

/-- No visit and no self slot runs. -/
def leafIdle (s : State) : State :=
  { s with leaf := { s.leaf with phase := if s.leaf.selfFail then .stopped else .none, inPhase := 0, ch := 0x3F, time := 0
                                 standin := false, gapFill := false, fresh := none, cut := false, failed := false
                                 leaving := none } }

/-- A channel is deferred (R130, R138). -/
def leafDefer (n : Nat) (s : State) : State :=
  raiseBit bLeaf 3 { s with leaf := { s.leaf with deferred := s.leaf.deferred ||| bitW n } }

/-- A visit is in progress. -/
def State.visiting (s : State) : Bool :=
  match s.leaf.phase with
  | .overlapIn => true
  | .zero => true
  | .reference => true
  | .overlapOut => true
  | _ => false

/-- The visited cell channel. -/
def State.visited (s : State) : Option Chan :=
  if s.visiting then (if h : s.leaf.ch.toNat < 32 then some ⟨s.leaf.ch.toNat, h⟩ else none) else none

/-- The visit is to end at the next frame boundary (R133); a deferral that a step load has asked for stays. -/
def leafLeave (defer : Bool) (s : State) : State :=
  if s.visiting then { s with leaf := { s.leaf with leaving := some (defer || s.leaf.leaving.getD false) } } else s

/-- A visit of the channel in VISIT.CH is over: it leaves DEFERRED. -/
def leafServed (s : State) : State :=
  { s with leaf := { s.leaf with deferred := s.leaf.deferred &&& ~~~ bitW s.leaf.ch.toNat } }

/-- The visit breaks off: its channel leaves DEFERRED, but not where a step load defers it or the visit has been broken off before
(R133). -/
def leafBroken (s : State) : State :=
  if s.leaf.leaving = some true ∧ s.leaf.ch.toNat < 32 then leafDefer s.leaf.ch.toNat s
  else if s.leaf.cut then s
  else leafServed s

/-- The frame boundary at which a visit that must leave does so (R133): in a substitution the channel reconnects and
its stand-in runs 2 ms more, as it does where the visit has been broken off already; else the LEAF leaves. -/
def leafBoundary (s : State) : State :=
  match s.leaf.leaving with
  | none => s
  | some _ =>
    let s := leafBroken s
    if s.leaf.phase = .zero ∨ s.leaf.phase = .reference then
      { s with leaf := { s.leaf with
        phase := .overlapOut, inPhase := 0, fresh := none, cut := true, leaving := none } }
    else if s.leaf.cut && s.leaf.standin then { s with leaf := { s.leaf with leaving := none } }
    else leafIdle s

/-! ### IO24 -/

/-- PCFG of pin k in force: its reset value until READY (R392). -/
def State.pcfg (s : State) (k : Fin 8) : Word := if s.ready then s.reg 0x08 (0x08 + k.val) else 0x0004C837

/-- Pin k is an output. -/
def State.isOut (s : State) (k : Fin 8) : Bool := bit (s.pcfg k) 31

/-- A pin changed by f. -/
def State.modPin (k : Fin 8) (f : Pin → Pin) (s : State) : State :=
  { s with io := { s.io with pins := s.io.pins.set k.val (f s.io.pins[k.val]) k.isLt } }

def allPins : List (Fin 8) := List.finRange 8

/-- A safe-value latch sets on the pins that are outputs and satisfy f (R391, R392). -/
def setSafe (f : Fin 8 → Bool) (s : State) : State :=
  allPins.foldl (fun s k =>
    if f k && s.isOut k && !s.io.pins[k.val].safeLatch then
      raiseBit bIo24 26 (s.modPin k fun p => { p with safeLatch := true })
    else s) s

/-- Every safe-value latch sets. -/
def setSafeAll (s : State) : State := setSafe (fun _ => true) s

/-- The level HGP0 (or HGP1) presents at the field die: LINK.CTRL's default after refresh loss (R26). -/
def State.hgp (s : State) (one : Bool) : Bool :=
  let l := if one then s.link.hgp1 else s.link.hgp0
  if l.lost then bit (s.reg 0x05 0x01) (if one then 5 else 4) else l.sent

/-- SAFE_OUT# is asserted (R318). -/
def State.safeOut (s : State) : Bool := !s.ready || s.anySafe || s.fcol.failStop

/-- The level of the source of output pin k (R388). -/
def State.sourceOut (s : State) (k : Fin 8) : Bool :=
  match fld (s.pcfg k) 26 2 with
  | 0 => bit (s.reg 0x08 0x11) k.val
  | 1 => s.hgp false
  | 2 => s.hgp true
  | _ => s.safeOut

/-- The level the switch of output pin k drives (R388); off before READY, while L+ is missing or the domain has failed
(R20, R360), and below the VDDP threshold (R464). In DOZE and SLEEP it keeps the level of its source (R363), which a
safe value alone replaces (R391). -/
def State.outLevel (s : State) (k : Fin 8) : Bool :=
  let p := s.io.pins[k.val]
  if !s.ready || s.io.lpMiss || s.pwr.failed.getLsbD dIo24 || s.sup.vddpUv || p.ovlT || p.ovlC then false
  else if p.safeLatch then bit (s.reg 0x08 0x12) k.val
  else if s.asleep then p.held
  else s.sourceOut k

/-- The filtered state of pin k: for an output the level it drives (R385), held while L+ is missing and in DOZE and SLEEP
(R386). -/
def State.filtered (s : State) (k : Fin 8) : Bool :=
  if s.isOut k then (if s.io.lpMiss || s.asleep then s.io.pins[k.val].drove else s.outLevel k) else s.io.pins[k.val].filt

/-- The integrator and the filtered state of a pin restart at 0 (R384). -/
def Pin.restart (p : Pin) : Pin := { p with integ := 0, filt := false, phase := 0 }

/-! ### Fixture port -/

/-- FIX.CTRL.EN. -/
def State.fixEn (s : State) : Bool := bit (s.reg 0x07 0x01) 0

/-- A read sequence begins: a clamp close sets STATE to UNVERIFIED (R401). -/
def beginSequence (k : SeqKind) (s : State) : State :=
  { s with fix := { s.fix with running := some k, before := s.fix.state, result := none, losses := 0
                               state := if k = .clampClose then 1 else s.fix.state } }

/-- A trigger of a read sequence: served at once, or after the one that runs (R401, R403). With CTRL.EN = 0 none runs
(R405). -/
def triggerSequence (k : SeqKind) (s : State) : State :=
  if !s.fixEn then s
  else if s.fix.running = none then beginSequence k s
  else { s with fix := { s.fix with waiting := s.fix.waiting ++ [k] } }

/-- PENDCNT takes one more cycle that was not written, saturating at 255 (R399). -/
def pendInc (s : State) : State :=
  { s with fix := { s.fix with pendCnt := if s.fix.pendCnt = 255 then 255 else s.fix.pendCnt + 1 } }

/-- The sequence in progress owes a clamp cycle to the tag's count, which only the count's owner writes (R399, R409). -/
def State.clampOwed (s : State) : Bool :=
  decide (s.fix.running = some .clampClose) && s.fix.result.isNone && bit (s.reg 0x07 0x08) 6

/-- BLOCK_RESET of the port: it releases the bus and reads the tag again (R305, R401). A clamp close whose sequence is
abandoned counts in PENDCNT (log entry 13). -/
def resetFixture (s : State) : State :=
  let s := if s.clampOwed then pendInc s else s
  triggerSequence .plain { s with fix := { s.fix with running := none, result := none, losses := 0, busLow := false } }

/-! ### Host link -/

/-- The response buffer is emptied, all tags and the held response are released (R260, R262). -/
def emptyBuffer (s : State) : State := { s with link := { s.link with buf := [], held := none } }

/-- A host link reset: both counts 0, buffer empty, all tags free, PREV_OK 0 (R260, R261). -/
def resetLink (s : State) : State :=
  let s := emptyBuffer s
  { s with link := { s.link with reqCnt := 0, rspCnt := 0, prevOk := false } }

/-! ### Others -/

/-- The target returns to the address state (R305). -/
def resetMgmt (s : State) : State :=
  { s with mgmt := { s.mgmt with out := [], ack := false, stretch := false } }

/-- BENCH sense restarts: the substitute of R214 is used for 1 ms (R305), the frame end that falls in it too. -/
def resetBench (s : State) : State :=
  setVb s.bench.vbLocal (useVb s.bench.vbLocal { s with bench := { s.bench with forced := 2 } })

/-- BLOCK_RESET of the broker (R238). -/
def resetBroker (s : State) : State :=
  let s := forChans allChans (fun n s =>
    let q := (s.cell n).seq
    if q.state.live && decide (q.phase ≠ .off) && q.step.any Step.requests then enterSafe n s else s) s
  retrimAll (noteNet { s with bench := { s.bench with queue := [], granted := false, kp := 65536, n := 1000 } })

/-- BLOCK_RESET of the recipe engine: every channel in ARMED, RUN or HOLD enters SAFE with reason RESET, all shadows
are discarded, RELEASE clears (R176). -/
def resetRecipe (s : State) : State :=
  let s := forChans allChans (fun n s =>
    if (s.cell n).seq.state.live then safeWith (some 10) false false n s else s) s
  { s with rcp := { s.rcp with release := 0 } }

/-- The channels of a half that are ARMED, RUN or HOLD enter SAFE (R305). -/
def safeHalf (b : Bool) (s : State) : State :=
  forChans (half b) (fun n s => if (s.cell n).seq.state.live then enterSafe n s else s) s

/-- The measurement chains of a half restart: their filters hold no state (R305). -/
def resetChains (b : Bool) (s : State) : State :=
  forChans (half b) (fun n s => s.modCell n fun c =>
    { c with meas := { c.meas with fv := { c.meas.fv with on := false }, fi := { c.meas.fi with on := false }
                                   fo := { c.meas.fo with on := false }, differ := 0
                                   ft := { c.meas.ft with on := false } } }) s

/-- The channel units of a half reset once their ramps have ended: paths off, dead time back to its start (R305,
03_power_stage.md; log entry 14). -/
def resetUnits (b : Bool) (s : State) : State :=
  forChans (half b) (fun n s =>
    (stopPaths n s).modPs n fun p => { p with dtAct := 0x003C003C, limclamp := false, toFault := false }) s

/-- BLOCK_RESET of IO24: every output to its safe value, then the block restarts with its configuration. -/
def resetIo24 (s : State) : State :=
  let s := setSafeAll s
  { s with io := { s.io with pins := s.io.pins.map Pin.restart } }

/-- BLOCK_RESET of a check unit: it stops and reloads its configuration. -/
def resetUnit (u : Fin 2) (s : State) : State :=
  { s with units := s.units.set u.val { s.units[u.val] with busy := false, dirty := false, block := [], fresh := true } }

/-- The Huwaind core restarts (R441): an erase or program in progress is abandoned, the secure erase too, which the next
start-up then runs (log entry 81); HK_RESTART_DONE ends the restart. -/
def restartCore (s : State) : State :=
  { s with hk := { s.hk with restarting := true }, nvm := { s.nvm with busy := false }, sec := { s.sec with erasing := false } }

/-- OFF: the SRAM banks lose their contents, their parity with them (R328); NVM keeps its own. -/
def loseBanks (s : State) : State :=
  { s with banks := { s.banks with r := [], l := [], c := [], h := [], s := []
                                   bad := s.banks.bad.filter fun w => decide (w.1 = .nvm) } }

/-- BLOCK_RESET of the NVM: an erase or program in progress is abandoned. A mailbox command that ran one ends with a
failed result; NVPEND stays, and the next start-up erases (R305, R355; log entry 81). -/
def resetNvm (s : State) : State :=
  { s with nvm := { s.nvm with busy := false, dropped := s.nvm.dropped || s.nvm.busy }, sec := { s.sec with erasing := false } }

end Sys2Proof.Machine
end

