-- ==== Sys2Proof/Machine/Collector.lean ====
section
/-! DEFINITION. The fault collector: how a report is latched, captured, counted, escalated, shadowed and reacted to
(10_fault_collection.md). `reports` is the one operation every command that reports uses. -/

namespace Sys2Proof.Machine

/-! ### Lines -/

abbrev lHostlink : Line := 0
abbrev lBarrier : Line := 1
abbrev lMgmt : Line := 2
abbrev lFixture : Line := 3
abbrev lIo24 : Line := 4
abbrev lBench : Line := 5
abbrev lBroker : Line := 6
abbrev lRecipe : Line := 7
abbrev lLog : Line := 8
abbrev lCapture : Line := 9
abbrev lEis : Line := 10
abbrev lLeaf : Line := 11
abbrev lMeasA : Line := 12
abbrev lMeasB : Line := 13
abbrev lDriveA : Line := 14
abbrev lDriveB : Line := 15
abbrev lChprot : Line := 16
abbrev lSramR : Line := 17
abbrev lSramL : Line := 18
abbrev lSramH : Line := 19
abbrev lNvm : Line := 20
abbrev lSecure : Line := 21
abbrev lCheck0 : Line := 22
abbrev lCheck1 : Line := 23
abbrev lClock : Line := 24
abbrev lPll : Line := 25
abbrev lSupply : Line := 26
abbrev lThermal : Line := 27
abbrev lHkcore : Line := 28
abbrev lWatchdog : Line := 29
abbrev lRtc : Line := 30
abbrev lTamper : Line := 31

/-- The page whose counter counts a line's reports that name no channel (R305). -/
def lineBlk (l : Line) : Fin 53 :=
  match l.val with
  | 0 | 1 => bLink
  | 2 => bMgmt
  | 3 => bFix
  | 4 => bIo24
  | 5 | 6 => bBench
  | 7 => bRcp
  | 8 => bLog
  | 9 | 10 => bCap
  | 11 => bLeaf
  | 17 | 18 | 19 => bMem
  | 20 => bNvm
  | 21 | 31 => bSec
  | 22 | 23 => bChk
  | 24 | 25 | 30 => bClk
  | 26 => bPwr
  | 27 | 28 | 29 => bHk
  | _ => bFcol

/-- The counter of a report: the drawer of the channel it names, else the page of R305. -/
def reportCounter (r : Report) : Fin 53 :=
  match r.chan with
  | some n => chB (dr n)
  | none => lineBlk r.line

/-- The blocks whose lock a BLOCK_RESET of a line closes (R49, R305). The manual names no line for a drawer: the model takes
DRIVEA and DRIVEB, whose reset is that of the channel units, and none for MEASA, MEASB and CH[32] (log entry 92). -/
def resetPages (l : Line) : List (Fin 53) :=
  match l.val with
  | 0 | 1 => [bLink]
  | 2 => [bMgmt]
  | 3 => [bFix]
  | 4 => [bIo24]
  | 5 | 6 => [bBench]
  | 7 => [bRcp]
  | 8 => [bLog]
  | 9 | 10 => [bCap]
  | 11 => [bLeaf]
  | 14 => (half false).map fun n => chB (dr n)
  | 15 => (half true).map fun n => chB (dr n)
  | 19 | 28 | 29 => [bHk]
  | 20 => [bNvm]
  | 22 | 23 => [bChk]
  | _ => []

/-- What "acts as" makes of BLOCK_RESET on a line (R305, R309). -/
def actsAs (l : Line) (code : Nat) : Nat :=
  if code = 3 then
    match l.val with
    | 16 => 2
    | 17 | 18 | 21 | 30 | 31 => 1
    | 24 | 25 | 26 | 27 => 4
    | _ => 3
  else code

/-- FCOL.REACT's code of a line for a class (R309). -/
def State.reactCode (s : State) (l : Line) (c : FClass) : Nat :=
  s.regF 0x04 (0x40 + l.val) (match c with | .corrected => 0 | .contained => 4 | .fatal => 8) 3

/-- The channels CH_SAFE affects when the report names none (R305). -/
def State.lineChans (s : State) (l : Line) : Word :=
  match l.val with
  | 5 | 6 | 24 | 25 | 26 | 27 => 0xFFFFFFFF
  | 11 => match s.visited with
    | some n => bitW n.val
    | none => 0
  | 12 | 14 => 0x0000FFFF
  | 13 | 15 => 0xFFFF0000
  | _ => 0

/-- The channels a CH_SAFE of a report affects: the named one and its formed gang, else those of R305 (R311). -/
def State.safeChans (s : State) (r : Report) : Word :=
  match r.chan with
  | some n => chanMask fun k => decide (k ∈ s.gangOf n)
  | none => s.lineChans r.line

/-- The reaction of a report for a class, with "acts as" taken (R309, R311). -/
def State.reaction (s : State) (r : Report) (c : FClass) : Nat :=
  let code := actsAs r.line (s.reactCode r.line c)
  if code = 2 ∧ s.safeChans r = 0 then 1 else code

/-! ### Latching, capture, counting -/

/-- STATUS and the class word of a report latch (R300). -/
def latchReport (l : Line) (c : FClass) (s : State) : State :=
  let b := bitW l.val
  let f := s.fcol
  raise bFcol b { s with fcol := match c with
    | .corrected => { f with clsCor := f.clsCor ||| b }
    | .contained => { f with clsCon := f.clsCon ||| b }
    | .fatal => { f with clsFat := f.clsFat ||| b } }

def masterCode : Master → Nat
  | .none => 0
  | .hostlink => 1
  | .mgmt => 2
  | .hkcore => 3
  | .recipe => 4
  | .log => 5
  | .capt => 6
  | .march => 7
  | .check0 => 8
  | .check1 => 9

def accCode : Acc → Nat
  | .read => 0
  | .write => 1
  | .fetch => 2
  | .background => 3

def classCode : FClass → Nat
  | .corrected => 0
  | .contained => 1
  | .fatal => 2

def bankCode : Bank → Nat
  | .r => 0
  | .l => 1
  | .c => 2
  | .h => 3
  | .s => 4
  | .nvm => 5

/-- xxx_ADDR of a report; one that names a channel and no register carries the drawer page and offset 0. -/
def reportAddr (r : Report) : Word :=
  match r.loc, r.chan with
  | .reg p o, _ => 0x40000000 ||| put p.toNat 8 ||| put o.toNat 0
  | .bank b a, _ => 0x80000000 ||| put (bankCode b) 27 ||| put (a % 2 ^ 20) 0
  | .none, some n => 0x40000000 ||| put (0x20 + n.val) 8
  | .none, none => 0

/-- xxx_INFO of a report as first captured. -/
def reportInfo (r : Report) (last : Bool) : Word :=
  0x80000000 ||| putB r.inj 29 ||| put r.line.val 23 ||| put (masterCode r.master) 19 ||| put (accCode r.acc) 17
    ||| putB last 16 ||| put (classCode r.cls) 14

/-- A capture takes a report, or sets MORE (R303). -/
def Capture.take (c : Capture) (r : Report) (last : Bool) (tsl tsh : Word) : Capture :=
  if bit c.info 31 then { c with info := c.info ||| bitW 30 } else ⟨reportInfo r last, reportAddr r, tsl, tsh⟩

/-- The capture of the report's class (R303, R304). -/
def captureReport (r : Report) (c : FClass) (last : Bool) (s : State) : State :=
  let t (x : Capture) := x.take r last s.timeL s.timeH
  { s with fcol := match c with
    | .corrected => { s.fcol with cor := t s.fcol.cor }
    | .contained => { s.fcol with con := t s.fcol.con }
    | .fatal => { s.fcol with fat := t s.fcol.fat } }

def classUp : FClass → FClass
  | .corrected => .contained
  | _ => .fatal

/-- A counted report (R306, R307): the counter, the marks, and the class it is handled in. While this counter holds a
lasting mark every report it counts is escalated. -/
def countReport (r : Report) (s : State) : FClass × State :=
  let b := reportCounter r
  let c := s.com[b.val]
  let n := c.count + 1
  let past := decide (c.thresh.toNat < min n 255)
  let esc := past || decide (c.lastLines ≠ 0) || c.lastChan
  let s := s.modCom b fun c =>
    { c with count := n
             lastLines := if past then c.lastLines ||| bitW r.line.val else c.lastLines
             lastChan := c.lastChan || (past && r.chan.isSome) }
  (if esc then classUp r.cls else r.cls, s)

/-! ### Shadows -/

/-- The channels of a set hold the report's channel. -/
def namesIn (r : Report) (w : Word) : Bool :=
  match r.chan with
  | some n => bit w n.val
  | none => false

/-- The detectors one part of a reaction shadows (R319). -/
def RxPart.covers (p : RxPart) (r : Report) : Bool :=
  let l := r.line.val
  match p.code with
  | 2 => decide (l = 5 ∨ l = 6) || (decide (l = 7 ∨ (12 ≤ l ∧ l ≤ 16)) && namesIn r p.chans)
  | 4 => decide (l = 5 ∨ l = 6 ∨ l = 7 ∨ l = 11 ∨ (12 ≤ l ∧ l ≤ 16))
  | 3 =>
    match p.line.val with
    | 0 | 1 => decide (l = 0 ∨ l = 1)
    | 5 | 6 => decide (l = 5 ∨ l = 6)
    | 9 | 10 => decide (l = 9 ∨ l = 10 ∨ l = 11)
    | 12 => decide (l = 12 ∨ l = 11 ∨ l = 5 ∨ l = 6) || (decide (l = 16) && namesIn r 0x0000FFFF)
    | 13 => decide (l = 13 ∨ l = 11 ∨ l = 5 ∨ l = 6) || (decide (l = 16) && namesIn r 0xFFFF0000)
    | 14 => decide (l = 14 ∨ l = 12 ∨ l = 5 ∨ l = 6) || (decide (l = 16) && namesIn r 0x0000FFFF)
    | 15 => decide (l = 15 ∨ l = 13 ∨ l = 5 ∨ l = 6) || (decide (l = 16) && namesIn r 0xFFFF0000)
    | 7 => decide (l = 7 ∨ l = 6)
    | 11 => decide (l = 11 ∨ l = 12 ∨ l = 13)
    | 19 | 28 | 29 => decide (l = 28 ∨ l = 29 ∨ l = 19 ∨ l = 27 ∨ l = 26 ∨ l = 3)
    | k => decide (l = k)
  | _ => false

/-- The slot of the reaction whose shadow takes the report: false A, true B (R320, R322). Judged before any report of
this cycle starts a reaction. -/
def State.shadowOf (s : State) (r : Report) : Option Bool :=
  let code := s.reaction r r.cls
  if code = 5 then none
  else match s.fcol.rxA, s.fcol.rxB with
    | some _, some _ => if 2 ≤ code then some true else none
    | some a, none => if decide (a.code ≤ code) && a.parts.any (·.covers r) then some false else none
    | none, some b => if decide (b.code ≤ code) && b.parts.any (·.covers r) then some true else none
    | none, none => none

/-- Two reports of one detector: one line, channel and code of the block. -/
def sameDetector (r y : Report) : Bool :=
  decide (y.line = r.line) && decide (y.chan = r.chan) && decide (y.det = r.det)

/-- The last shadowed report of each detector (R321). -/
def Reaction.remember (x : Reaction) (r : Report) : Reaction :=
  { x with shadowed := x.shadowed.filter (fun y => !sameDetector r y) ++ [r] }

/-- A report handled as shadowed (R320). -/
def shadowReport (r : Report) (inB : Bool) (s : State) : State :=
  let s := if s.reaction r r.cls = 0 then s else latchReport r.line r.cls s
  let s := captureReport r r.cls false s
  { s with fcol := { s.fcol with
      shadowed := satW s.fcol.shadowed, shmap := s.fcol.shmap ||| bitW r.line.val
      rxA := if inB then s.fcol.rxA else s.fcol.rxA.map (·.remember r)
      rxB := if inB then s.fcol.rxB.map (·.remember r) else s.fcol.rxB } }

/-- A report handled normally (R300 to R307); answers its reaction. -/
def normalReport (r : Report) (s : State) : RxPart × State :=
  let (c, s) := countReport r s
  let code := s.reaction r c
  let s := if code = 0 then s else latchReport r.line c s
  let s := captureReport r c (decide (c ≠ r.cls)) s
  (⟨code, r.line, s.safeChans r⟩, s)

/-! ### Reactions -/

/-- FAIL_STOP is entered (R314): a cause and, for a line reaction, the line. A FAIL_STOP that holds is not entered
again. -/
def failStop (cause : BitVec 4) (line : Line) (s : State) : State :=
  if s.fcol.failStop then s else
    let s := { s with fcol := { s.fcol with failStop := true, fsCause := cause, fsLine := line } }
    setSafeAll (closeAllLocks (allSafe s))

/-- ALL_SAFE (R312). -/
def allSafeRx (s : State) : State := allSafe s

/-- BLOCK_RESET of a line (R305). -/
def blockReset (l : Line) (s : State) : State :=
  let s := (resetPages l).foldl (fun s b => closeLock b s) s
  match l.val with
  | 0 | 1 => resetLink s
  | 2 => resetMgmt s
  | 3 => resetFixture s
  | 4 => resetIo24 s
  | 5 => resetBench s
  | 6 => resetBroker s
  | 7 => resetRecipe s
  | 9 | 10 => resetCapture s
  | 11 => leafLeave false { s with leaf := { s.leaf with nextN := 0 } }
  | 12 => resetChains false (safeHalf false s)
  | 13 => resetChains true (safeHalf true s)
  | 14 => safeHalf false s
  | 15 => safeHalf true s
  | 19 | 28 | 29 => restartCore s
  | 20 => resetNvm s
  | 22 => resetUnit 0 s
  | 23 => resetUnit 1 s
  | _ => s

/-- One part of a reaction acts. -/
def runPart (p : RxPart) (s : State) : State :=
  match p.code with
  | 2 => forChans (chansOf p.chans) enterSafe s
  | 3 => blockReset p.line s
  | 4 => allSafeRx s
  | _ => s

/-- The channels of a half that are ARMED, RUN or HOLD. -/
def State.liveHalf (s : State) (b : Bool) : Word := chanMask fun n => decide (n ∈ half b) && (s.cell n).seq.state.live

/-- The channels a part puts into SAFE by itself. -/
def RxPart.reach (s : State) (p : RxPart) : Word :=
  match p.code with
  | 2 => p.chans
  | 4 => 0xFFFFFFFF
  | 3 => match p.line.val with
    | 12 | 14 => s.liveHalf false
    | 13 | 15 => s.liveHalf true
    | _ => 0
  | _ => 0

/-- The reactions taken from the reports of one cycle form one reaction (R310). While two run none starts: a report that
only its escalation raises to such a reaction is latched and counted, and its reaction is not taken (R322; log
entry 82). -/
def startReaction (ps : List RxPart) (s : State) : State :=
  let w := ps.foldl (fun m p => max m p.code) 0
  let top := ps.filter fun p => decide (p.code = w)
  match top with
  | [] => s
  | t :: _ =>
    if w < 2 then s
    else if w = 5 then failStop 1 t.line s
    else if s.fcol.rxA.isSome && s.fcol.rxB.isSome then s
    else
      let cov := top.foldl (fun m p => m ||| p.reach s) 0
      let extra := ps.filter fun p => decide (p.code = 2) && decide (w ≠ 2) && decide (p.chans &&& ~~~ cov ≠ 0)
      let parts := (top ++ extra).map fun p => if p.code = 3 then { p with chans := p.reach s } else p
      let s := parts.foldl (fun s p => runPart p s) s
      let x : Reaction := ⟨w, t.line, false, parts, []⟩
      match s.fcol.rxA with
      | none => { s with fcol := { s.fcol with rxA := some x } }
      | some _ => { s with fcol := { s.fcol with rxB := some x } }

/-- Reports of one cycle in ascending line order (R304). -/
def insertReport (r : Report) : List Report → List Report
  | [] => [r]
  | x :: rest => if r.line < x.line then r :: x :: rest else x :: insertReport r rest

/-- The reports of one internal cycle, taken by the collector (R298 to R322). -/
def takeReports (rs : List Report) (s : State) : State :=
  let rs := rs.foldl (fun l r => insertReport r l) []
  let s0 := s
  let (ps, s) := rs.foldl (fun (acc : List RxPart × State) r =>
    match s0.shadowOf r with
    | some b => (acc.1, shadowReport r b acc.2)
    | none => let (p, t) := normalReport r acc.2; (acc.1 ++ [p], t)) ([], s)
  startReaction ps s

/-- The reports of one internal cycle: in DOZE and SLEEP the collector stands, and they wait for it (R20, R358; log entry 93). -/
def reports (rs : List Report) (s : State) : State :=
  if s.asleep then { s with fcol := { s.fcol with held := s.fcol.held ++ rs } } else takeReports rs s

/-- The collector works again: it takes the reports that waited. -/
def takeHeld (s : State) : State :=
  if s.fcol.held = [] then s else takeReports s.fcol.held { s with fcol := { s.fcol with held := [] } }

/-- One report with no master and background access, of detector `det`. -/
def report (l : Line) (c : FClass) (n : Option Chan) (loc : Loc) (det : Nat) (s : State) : State :=
  reports [⟨l, c, n, loc, .none, .background, false, det, 0⟩] s

/-- FRAME bits of an ERR_CAP detail: `lo` bits of DIGEST.FRAME. -/
def State.frameBits (s : State) (lo : Nat) : Nat := s.frame.toNat % 2 ^ lo

/-- An error the block reports: its ERR_CAP takes the detail in the same cycle (R298). -/
def blockError (b : Fin 53) (detail : Nat) (l : Line) (c : FClass) (n : Option Chan) (loc : Loc) (det : Nat) (s : State) :
    State :=
  report l c n loc det (capErr b (BitVec.ofNat 23 detail) s)

/-- A reaction's own end (R313): the units of a driver half reset when their ramps have ended. -/
def Reaction.finish (x : Reaction) (s : State) : State :=
  x.parts.foldl (fun s p =>
    if p.code = 3 ∧ p.line = lDriveA then resetUnits false s
    else if p.code = 3 ∧ p.line = lDriveB then resetUnits true s else s) s

end Sys2Proof.Machine
end

