-- ==== Sys2Proof/Machine/Flags.lean ====
section
/-! DEFINITION. Every word and pin the device forms from its state: STATUS as read, LIVE, interrupt requests, INT#,
FAULT#, SAFE_OUT#, ALERT#, and the status byte (R37, R38, R248, R277 to R281, R301, R302, R318, R429, R430). -/

namespace Sys2Proof.Machine

/-! ### STATUS and LIVE -/

/-- STATUS of a block as software reads it: SEC.NVPEND and NVM bit 1 follow their conditions. -/
def State.status (s : State) (b : Fin 53) : Word :=
  let w := s.com[b.val].status
  if b = bSec then w ||| putB s.sec.nvpend 5
  else if b = bNvm then w ||| putB s.nvmBusy 1
  else w

/-- The requests of block b among the bits of `mask`: STATUS bits whose IRQ_EN bit is 1 (R38). -/
def State.requests (s : State) (b : Fin 53) (mask : Word) : Bool :=
  decide (s.status b &&& s.com[b.val].irqEn &&& mask ≠ 0)

/-- A queued request of channel n, and of every channel of its gang (R226). -/
def State.queued (s : State) (n : Chan) : Bool :=
  s.bench.queue.any fun x => decide (x.idx = dr (s.leader n))

/-- Burst operation: only in FRUGAL with TUNE_CTRL.BURST_OFF = 0 (R85). -/
def State.bursts (s : State) (n : Chan) : Bool :=
  (s.cell n).ps.burst && s.burstOk n

/-- PS_LIVE.PSKIP: the cell voltage lies between 0.3 V and 50 ns × f_SW × V_BENCH (R65). V_BENCH is the device's VB as
published, where R214 names a reading of the channel too (log entry 91). -/
def State.skips (s : State) (n : Chan) : Bool :=
  let v := (s.cell (s.leader n)).fv
  (s.cell n).ps.switching && decide (300000 ≤ v) && decide (v * 800 < s.bench.vb.toInt * (8 + s.fswAct n))

/-- PS_LIVE of channel n. -/
def State.psLive (s : State) (n : Chan) : Word :=
  let p := (s.cell n).ps
  put (s.phaseAct n) 20 ||| put (s.fswAct n) 12 ||| putB p.ramp 9 ||| putB p.rsw 8 ||| putB (s.member n) 7
    ||| putB (s.gangErr n) 6 ||| putB p.limclamp 5 ||| putB p.fold 4 ||| putB (s.skips n) 3 ||| putB (s.bursts n) 2
    ||| putB p.trickleOn 1 ||| putB p.switching 0

/-- LIVE of a cell drawer (R177). -/
def State.chLive (s : State) (n : Chan) : Word :=
  let c := s.cell n
  let q := (s.cell (s.leader n)).seq
  putB (decide (c.seq.state = .done)) 2 ||| putB (decide (c.seq.state = .hold)) 3
    ||| putB (match q.next with
      | .stale _ => decide (q.state = .hold)
      | _ => false) 6
    ||| putB (decide (c.ps.evt ≠ 0)) 7 ||| putB (decide (c.seq.state = .safe)) 8
    ||| putB (decide (c.seq.state = .fault)) 9 ||| putB (s.queued n) 10 ||| putB c.trimmed 11

/-- The device is in LIMITED (R449). -/
def State.limited (s : State) : Bool := s.sys.unpaired || s.sys.march

/-- CLK.LIVE.SYNCLOST (R117, R372, R374). -/
def State.syncLost (s : State) : Bool := s.clk.freeRun || s.clk.pllOff || !bit (s.reg 0x01 0x01) 0

/-- Entries of the response buffer, the held one first. -/
def State.entries (s : State) : List Response := s.link.held.toList ++ s.link.buf

/-- Free words of the response buffer. -/
def State.freeWords (s : State) : Nat := 2048 - (s.entries.map fun r => r.len.toNat + 1).sum

/-- RQFULL (R264): all 32 entries in use, or fewer than 256 words free. -/
def State.rqFull (s : State) : Bool := decide (32 ≤ s.entries.length) || decide (s.freeWords < 256)

/-- LIVE of each block (R37 and the owning chapters). -/
def State.live (s : State) (b : Fin 53) : Word :=
  match b.val with
  | 0 => putB s.limited 0
  | 1 => putB s.syncLost 1 ||| putB s.clk.aligned 2 ||| putB s.clk.vbakLow 4 ||| putB s.clk.notLoaded 5
      ||| putB s.clk.rtcStop 6 ||| putB s.clk.xtalFail 7 ||| putB s.clk.pllUnlock 8
  | 2 => putB (decide (s.pwr.failed ≠ 0)) 1
  | 4 => bitsOf fun l => (List.finRange 53).any fun b => bit s.com[b.val].lastLines l
  | 5 => putB s.rqFull 4
      ||| putB s.link.sync.lost 16 ||| putB s.link.estop.lost 17 ||| putB s.link.hgp0.lost 18 ||| putB s.link.hgp1.lost 19
  | 6 => putB s.mgmt.sclLow 3 ||| putB s.mgmt.stop 6
  | 7 => putB (s.fix.running.isSome || s.fix.waiting.any fun k => decide (k ≠ .clampOpen)) 1
      ||| putB (!s.fix.pass && decide (s.fix.state ≠ 0)) 2 ||| putB (decide (s.fix.pendCnt ≠ 0)) 4
      ||| putB s.fix.hdrBad 5 ||| putB s.fix.cntBad 6 ||| putB s.fix.busLow 7 ||| putB s.fix.ovr 8 ||| putB s.fix.noKey 9
  | 8 => allPins.foldl (fun w k =>
        w ||| putB s.io.pins[k.val].wb (8 + k.val)
          ||| putB (s.io.pins[k.val].ovlT || s.io.pins[k.val].ovlC) (16 + k.val)
          ||| putB s.io.pins[k.val].safeLatch 26) 0
      ||| putB s.io.lpMiss 24 ||| putB (s.io.lpLow || s.io.lpMiss) 25
  | 9 => putB s.memc.running 0
  | 10 => putB (s.units[0].busy || decide (s.units[0].block ≠ [])) 0
      ||| putB (s.units[1].busy || decide (s.units[1].block ≠ []) || decide (s.hk.blocks ≠ [])) 8
  | 11 => putB (decide (s.bench.queue ≠ [])) 0 ||| putB (decide (s.k < 65536)) 1
      ||| putB (s.bench.queue.any s.stalls) 2 ||| putB (s.bench.queue.any s.oversize) 3
      ||| putB s.bench.bov 4 ||| putB s.bench.buv 5 ||| putB s.bench.buvw 6
      ||| putB (decide (s.benchI 0x20 < s.bench.net)) 7 ||| putB (decide (s.bench.net < -(s.benchI 0x21))) 8
      ||| putB (s.bench.subst || decide (s.bench.forced = 2)) 9
  | 12 => putB (decide (s.leaf.phase = .selfSlot)) 0 ||| putB (decide (s.leaf.aged ≠ 0)) 1
      ||| putB (decide (s.leaf.vfail ≠ 0)) 2 ||| putB (decide (s.leaf.deferred ≠ 0)) 3 ||| putB s.leaf.gapFill 4
      ||| putB s.leaf.selfFail 5 ||| putB s.leaf.refxBad 6
  | 13 => putB (decide (s.rcp.stale ≠ 0)) 1
  | 14 => putB (decide (s.logThresh ≤ s.fill)) 0
      ||| putB (decide (s.fill = 8192) || allChans.any fun n => decide (s.logQuota ≤ s.unreadOf n)) 1
  | 15 => putB (allChans.any fun n => s.cap.uses[n.val].isSome) 0
      ||| putB (allChans.any fun n => (s.cell n).eis.running) 1
  | 16 => put s.sec.trig.toNat 0 ||| putB s.sec.nvpend 5
  | 17 => putB s.hk.cmd.isSome 0 ||| putB s.hk.warn 2 ||| putB s.hk.hot 3
  | 18 => putB s.nvmBusy 1
  | 52 => 0
  | k => if h : 20 ≤ k ∧ k < 52 then s.chLive ⟨k - 20, by omega⟩ else 0

/-! ### FAULT#, ALERT# -/

/-- FAULT# is asserted (R302). -/
def State.faultN (s : State) : Bool :=
  s.fcol.failStop || decide (s.com[4].status &&& (s.fcol.clsCon ||| s.fcol.clsFat) ≠ 0)

/-- The level sent on FAULT#: asserted also before READY (R433). -/
def State.faultPin (s : State) : Bool := s.faultN || !s.ready

/-- FCOL.CHLAST (R308). -/
def State.chLast (s : State) : Word := chanMask fun n => s.com[(chB (dr n)).val].lastChan

/-- The conditions whose rising edges MGMT.ALERTSRC latches (R429), bit 5 HOSTIDLE among them. -/
def State.alertCond (s : State) : BitVec 7 :=
  BitVec.ofNat 7 ((putB s.faultN 0 ||| putB s.anySafe 1 ||| putB (s.bench.bov || s.bench.buv) 2
    ||| putB (s.requests bHk 0xC) 3 ||| putB s.fcol.failStop 4
    ||| putB (decide (s.regF 0x06 0x08 16 16 ≠ 0) && decide (s.regF 0x06 0x08 16 16 ≤ s.mgmt.idle)) 5
    ||| putB s.mgmt.stop 6).toNat)

/-- ALERT# is asserted (R430). -/
def State.alert (s : State) : Bool :=
  decide ((put s.mgmt.alertSrc.toNat 0 &&& s.reg 0x06 0x0A) ≠ 0) && !s.mgmt.araDone && bit (s.reg 0x06 0x01) 0

/-! ### Interrupts -/

/-- The trip bits of PS_EVT (R101). -/
def tripBits : Word := 0x36FF

/-- The pulse sources (R277). -/
def pulseSource (i : Fin 128) : Bool := decide (i.val = 80 ∨ i.val = 92 ∨ 96 ≤ i.val)

/-- The request of a level source (R277, R301). -/
def State.levelRequest (s : State) (i : Fin 128) : Bool :=
  let k := i.val
  if h : k < 32 then s.requests (chB (dr ⟨k, h⟩)) 0xCBF
  else if k = 32 then s.requests bLeaf 0x7F
  else if h : k < 65 then
    let n : Chan := ⟨k - 33, by omega⟩
    let b := chB (dr n)
    s.requests b 0x340 || (decide ((s.cell n).ps.evt &&& tripBits ≠ 0) && bit s.com[b.val].irqEn 7)
  else if k = 65 then s.requests bBench 0x270
  else if k = 66 then s.requests bBench 0x18F
  else if k = 67 then s.requests bLink 0xFFFFFFFF
  else if k = 68 then s.requests bMgmt 0x7F
  else if k = 69 then s.requests bFix 0x3FF
  else if k < 78 then s.requests bIo24 (bitW (k - 70) ||| bitW (k - 62) ||| bitW (k - 54))
  else if k = 78 then s.requests bIo24 0x07000000
  else if k = 79 then s.requests bClk 1
  else if k = 81 then s.requests bLog 1
  else if k = 82 then s.requests bLog 6
  else if k = 83 then s.requests bCap 5
  else if k = 84 then s.requests bCap 10
  else if k = 85 then s.requests bMem 0x1F
  else if k = 86 then s.requests bChk 0x7
  else if k = 87 then s.requests bChk 0x700
  else if k = 88 then s.requests bFcol s.fcol.clsCor
  else if k = 89 then s.requests bFcol s.fcol.clsCon
  else if k = 90 then s.requests bFcol s.fcol.clsFat
  else if k = 91 then s.requests bPwr 0xF
  else if k = 93 then s.requests bHk 0x13
  else if k = 94 then s.requests bSec 0xFFFFFFFF
  else if k = 95 then s.requests bHk 0xC
  else false

/-- PEND of source i (R278 to R280); in DOZE and SLEEP it holds what it was at entry (R295). -/
def State.pend (s : State) (i : Fin 128) : Bool :=
  if s.asleep then s.irq.pendHeld.getLsbD i.val else
  decide (s.prio i.val ≠ 0) && (if pulseSource i then s.irq.latch.getLsbD i.val else s.levelRequest i)

/-- ACTIVE of source i. -/
def State.active (s : State) (i : Fin 128) : Bool := s.irq.stack.any fun e => decide (e.src = i)

/-- MASK of source i. -/
def State.masked (s : State) (i : Fin 128) : Bool := bit (s.reg 0x03 (0x10 + i.val / 32)) (i.val % 32)

/-- Source i is eligible (R280). -/
def State.eligible (s : State) (i : Fin 128) : Bool := s.pend i && !s.masked i && !s.active i

/-- The level L: the priority of the top entry, 0 when the stack is empty (R280). -/
def State.level (s : State) : Nat := ((s.irq.stack.getLast?).map (·.prio.toNat)).getD 0

/-- IRQ.CTRL.GIE. -/
def State.gie (s : State) : Bool := bit (s.reg 0x03 0x01) 0

/-- Source i is deliverable (R280). -/
def State.deliverable (s : State) (i : Fin 128) : Bool :=
  s.eligible i && decide (s.level < s.prio i.val) && s.gie && decide (s.irq.stack.length < 8)

/-- INT# is asserted (R281); in DOZE and SLEEP it keeps the level it had at entry (R295). -/
def State.intN (s : State) : Bool :=
  if s.coreOn then (List.finRange 128).any s.deliverable else s.irq.held

/-- PENDw, ACTIVEw. -/
def State.pendWord (s : State) (w : Nat) : Word :=
  bitsOf fun b => if h : 32 * w + b < 128 then s.pend ⟨32 * w + b, h⟩ else false
def State.activeWord (s : State) (w : Nat) : Word :=
  bitsOf fun b => if h : 32 * w + b < 128 then s.active ⟨32 * w + b, h⟩ else false

/-- A word of the in-service stack (IRQ.STACK0, STACK1). -/
def State.stackWord (s : State) (w : Nat) : Word :=
  (List.range 4).foldl (fun a j =>
    a ||| put (match s.irq.stack[4 * w + j]? with
      | some e => e.src.val
      | none => 0xFF) (8 * j)) 0

/-! ### The condition latches every command settles -/

/-- ALERTSRC latches rising edges; a new latch clears ARADONE (R429, R430). -/
def settleAlerts (s : State) : State :=
  let c := s.alertCond
  let new := c &&& ~~~ s.mgmt.cond &&& ~~~ s.mgmt.alertSrc
  { s with mgmt := { s.mgmt with cond := c, alertSrc := s.mgmt.alertSrc ||| (c &&& ~~~ s.mgmt.cond)
                                 araDone := s.mgmt.araDone && decide (new = 0) } }

/-- A change of a pin's filtered state sets EDGE; that of an output follows the level it drives (R385). While L+ is
missing no EDGE is set (R386). -/
def settleOutputs (s : State) : State :=
  allPins.foldl (fun s k =>
    if s.filtered k ≠ s.io.pins[k.val].drove then
      let on := s.filtered k
      let t := s.modPin k fun p => { p with drove := on }
      if s.io.lpMiss then t else raiseBit bIo24 k.val t
    else s) s

end Sys2Proof.Machine
end

