-- ==== Sys2Proof/Machine/Secure.lean ====
section
/-! DEFINITION. The secure store: wipe and its triggers, key and seal, version pairing; waking
(11_memories_and_checks.md, 12_power_and_clock.md, 15_startup_and_lifecycle.md). -/

namespace Sys2Proof.Machine

/-- ERR_CAP of a block whose chapter gives DETAIL no layout takes a free detail (R298, R41; log entry 3). -/
def capErrFree (b : Fin 53) (s : State) : State :=
  let (w, s) := freeWord s
  capErr b (w.setWidth 23) s

/-- `blockError` of such a block. -/
def blockErrorFree (b : Fin 53) (l : Line) (c : FClass) (n : Option Chan) (loc : Loc) (det : Nat) (s : State) : State :=
  report l c n loc det (capErrFree b s)

/-! ### Version pairing (R448, R449) -/

/-- The version quadruple as four words. -/
def State.versions (s : State) : List Word :=
  [Config.verHw.setWidth 32, Config.verRom.setWidth 32, s.sys.verHk.setWidth 32, s.sys.verUcode.setWidth 32]

/-- SYS.PAIRQ: CRC-32 over the quadruple with fold word 0. -/
def State.pairq (s : State) : Word := crc32 s.versions 0

/-- n bytes of a bank from address a. -/
def State.mbytes (s : State) (b : Bank) (a n : Nat) : List Byte := (List.range n).map fun i => s.byte b (a + i)

/-- Entries of the pairing list. -/
def State.pairCount (s : State) : Nat := fld (s.mword .nvm 0xD004) 0 16

/-- The pairing list is there, reads without failure and its signature verifies with the key in the boot ROM (R356, R448). -/
def State.listGood (s : State) : Bool :=
  let n := 8 + 8 * s.pairCount
  decide (s.mword .nvm 0xD000 = 0x50414952) && decide (s.pairCount ≤ 503) && s.nvmGood 0xD000 (n + 64)
    && ecdsaOk Config.verKey (s.mbytes .nvm 0xD000 n) (s.mbytes .nvm (0xD000 + n) 64)

/-- An entry equals the quadruple. -/
def State.inList (s : State) : Bool :=
  let q := s.versions.map (·.setWidth 16)
  (List.range s.pairCount).any fun j =>
    decide ([s.mword .nvm (0xD008 + 8 * j), s.mword .nvm (0xD00C + 8 * j)]
      = [(q.getD 0 0 : BitVec 16) ++ (q.getD 1 0 : BitVec 16), (q.getD 2 0 : BitVec 16) ++ (q.getD 3 0 : BitVec 16)])

/-- An override for PAIRQ is held. -/
def State.overridden (s : State) : Bool := decide (s.pairq ∈ s.overrides)

/-- Pairing is checked (R448, R449): PAIRSTAT, SIGBAD for a bad list, LIMIT when a cause changes. -/
def checkPairing (s : State) : State :=
  let good := s.listGood
  let listed := good && s.inList
  let unp := !(listed || s.overridden)
  let t := { s with sys := { s.sys with
    listed := listed, ovrUsed := s.overridden && !listed, unpaired := unp, listBad := !good } }
  raiseIf (unp != s.sys.unpaired) bSys 0 (raiseIf (!good) bSec 15 t)

/-! ### Wipe (R354, R355, R408) -/

/-- FIX.STATE without a key: UNVERIFIED in place of GOOD, WORN and EXPIRED (R408). -/
def unverify (st : BitVec 3) : BitVec 3 := if st = 2 ∨ st = 3 ∨ st = 4 then 1 else st

/-- A wipe: BANK-S to 0, NVPEND set, the override and the verified fixture state end. During a wipe no second one
starts. -/
def wipe (s : State) : State :=
  if s.sec.nvpend then s else
    let f := s.fix
    { s with
        banks := { (s.banks.heal .s 0 (bankSize .s)) with s := [] }
        sec := { s.sec with nvpend := true, erasing := true, wipeCnt := satW s.sec.wipeCnt }
        fix := { f with ovr := false, noKey := true, pass := false
                        state := unverify f.state, result := f.result.map unverify } }

/-- The fixture flag of R408. -/
def wipeFlags (s : State) : State := if s.sec.nvpend then s else raiseBit bFix 9 (wipe s)

/-- A trigger of R354 seen, in every power state but OFF: STATUS bit i, TAMPER contained, and the wipe. -/
def trigger (i : Nat) (s : State) : State :=
  if s.pwr.state = .off then s else wipeFlags (blockErrorFree bSec lTamper .contained none .none (i + 1) (raiseBit bSec i s))

/-- The lid condition: LIDEN = 1 and the filtered state of the lid pin at LIDLVL (R354). -/
def State.lid (s : State) : Bool :=
  bit (s.reg 0x10 0x01) 1 &&
    (s.filtered (BitVec.toFin ((s.reg 0x10 0x0A).extractLsb' 4 3)) == bit (s.reg 0x10 0x0A) 0)

/-- A trigger condition's presence noted, in every power state but OFF; its start triggers (R354). -/
def noteTrigger (i : Fin 4) (on : Bool) (s : State) : State :=
  if s.pwr.state = .off then s else
  let was := s.sec.trig.getLsbD i.val
  let m := BitVec.ofNat 4 1 <<< i.val
  let t := { s with sec := { s.sec with trig := if on then s.sec.trig ||| m else s.sec.trig &&& ~~~ m } }
  if on && !was then trigger i.val t else t

/-! ### Waking (R361, R367, R370) -/

def PState.code : PState → Nat
  | .run => 0
  | .nap => 1
  | .doze => 2
  | .sleep => 3
  | .off => 0

/-- A wake source of R370: an entry in progress is aborted (R367), a sleeping device starts its exit. The first source that
starts the exit is recorded, with the state left. An entry to DOZE or SLEEP that is aborted is a wake too, from RUN as well: RUN
is reached within the exit time of that state, and no frame is served until then (R251, R367). -/
def wakeBy (code : BitVec 4) (pin : BitVec 3) (s : State) : State :=
  let src : Word := put s.pwr.state.code 12 ||| put pin.toNat 8 ||| put code.toNat 0
  if s.pwr.entering then
    let deep := decide (s.pwr.chosen = .doze ∨ s.pwr.chosen = .sleep)
    raiseBit bPwr 2 { s with pwr := { s.pwr with
      entering := false, chosen := .run, waking := if s.pwr.state = .run ∧ ¬ deep then none else some (code, pin)
      wakeSrc := if s.pwr.state = .run ∧ ¬ deep then s.pwr.wakeSrc else src
      deepAbort := deep } }
  else if s.pwr.state = .run ∨ s.pwr.state = .off ∨ s.pwr.waking.isSome then s
  else { s with pwr := { s.pwr with waking := some (code, pin), wakeSrc := src } }

end Sys2Proof.Machine
end

