-- ==== Sys2Proof/Machine/RegRead.lean ====
section
/-! DEFINITION. What a read of every register word returns (R13, R37 to R61 and the page tables of every chapter). A read
changes nothing (R14); IRQ.CLAIM read without a claim returns 0x0000_00FF (R282). -/

namespace Sys2Proof.Machine

/-- Words 0 to 3 of a 64-bit value: low, high (R12). -/
def lo64 (x : BitVec 64) : Word := x.extractLsb' 0 32
def hi64 (x : BitVec 64) : Word := x.extractLsb' 32 32

/-- Block codes of R43. -/
def blockCode (b : Fin 53) : Nat :=
  match b.val with
  | 0 => 0x5359
  | 1 => 0x434C
  | 2 => 0x5057
  | 3 => 0x4951
  | 4 => 0x4643
  | 5 => 0x4C4B
  | 6 => 0x4D47
  | 7 => 0x4658
  | 8 => 0x494F
  | 9 => 0x4D4D
  | 10 => 0x434B
  | 11 => 0x424E
  | 12 => 0x4C46
  | 13 => 0x5243
  | 14 => 0x4C47
  | 15 => 0x4350
  | 16 => 0x5345
  | 17 => 0x484B
  | 18 => 0x4E56
  | 19 => 0x4447
  | _ => 0x4452

/-- Offsets 0x00 and 0x02 to 0x07 of every block page and drawer (R37 to R48); CTRL is a stored word. -/
def State.readCommon (s : State) (b : Fin 53) (o : Nat) : Word :=
  let c := s.com[b.val]
  match o with
  | 0 => put (blockCode b) 16 ||| 0x0100
  | 2 => s.status b
  | 3 => s.live b
  | 4 => c.irqEn
  | 5 => put c.lostClr.toNat 24 ||| putB c.capValid 23 ||| put c.detail.toNat 0
  | 6 => put (min c.count 255) 24 ||| put c.thresh.toNat 16 ||| put c.window.toNat 0
  | 7 => put c.owner.toNat 6 ||| put c.badKey.toNat 2 ||| putB c.lkDrop 1 ||| putB c.lockOpen 0
  | _ => 0

/-- A drawer word the device maintains (R56; the drawer tables of chapters 03, 05 and 06). A gang member shows its
leader's step words (R173). -/
def State.readCell (s : State) (n : Chan) (o : Nat) : Word :=
  let c := s.cell n
  let l := s.cell (s.leader n)
  match o with
  | 0x09 => BitVec.ofNat 32 c.seq.state.code
  | 0x0B => putB l.seq.cvph 31 ||| put l.seq.pc.val 16 ||| s.chReg n.val 0x0B
  | 0x0C => l.seq.loops[0]
  | 0x0D => l.seq.loops[1]
  | 0x0E => l.seq.loops[2]
  | 0x0F => l.seq.loops[3]
  | 0x10 => c.pub.v
  | 0x11 => c.pub.i
  | 0x12 => c.pub.t
  | 0x13 => c.pub.p
  | 0x14 => lo64 c.pub.qIn
  | 0x15 => hi64 c.pub.qIn
  | 0x16 => lo64 c.pub.qOut
  | 0x17 => hi64 c.pub.qOut
  | 0x18 => lo64 c.pub.eIn
  | 0x19 => hi64 c.pub.eIn
  | 0x1A => lo64 c.pub.eOut
  | 0x1B => hi64 c.pub.eOut
  | 0x1C => c.pub.stepQ
  | 0x1D => c.pub.stepE
  | 0x1E => l.pub.stepT
  | 0x1F => l.pub.reason
  | 0x50 => s.psLive n
  | 0x51 => c.ps.evt
  | 0x52 => c.ps.dtAct
  | 0x53 => c.ps.pkCnt
  | 0x61 => c.dcir.stat
  | 0x62 => c.dcir.r1
  | 0x63 => c.dcir.r2
  | 0x64 => c.dcir.v0
  | 0x65 => c.dcir.i0
  | 0x66 => c.dcir.di1
  | 0x67 => c.dcir.di2
  | 0x68 => c.eis.stat
  | 0x69 => c.eis.r0
  | 0x6A => c.eis.f0
  | 0x6B => c.eis.rlf
  | 0x70 => c.meas.cres
  | 0x71 => c.meas.vdrop
  | 0x73 => putB c.meas.cresValid 31 ||| put (min c.meas.cresCount 65535) 0
  | 0x74 => lo64 c.pub.capq
  | 0x75 => hi64 c.pub.capq
  | _ => 0

/-- CH[32]: V, I, T of the LEAF chain, everything else 0 (R59). -/
def State.readLeafDrawer (s : State) (o : Nat) : Word :=
  match o with
  | 0x10 => s.ch[32].pub.v
  | 0x11 => s.ch[32].pub.i
  | 0x12 => s.ch[32].pub.t
  | _ => 0

/-- BENCH words (07_bench_bus.md). -/
def State.readBench (s : State) (o : Nat) : Word :=
  let b := s.bench
  match o with
  | 0x08 => b.vb
  | 0x09 => b.ib
  | 0x0A => b.pb
  | 0x0B => b.pnet
  | 0x0C => b.pchg
  | 0x0D => b.pdis
  | 0x0E => put s.k 0
  | 0x0F => (match rankOrder b.queue with
      | [] => put 0x3F 8
      | x :: _ => put x.idx.val 8) ||| put b.queue.length 0
  | 0x10 => chanMask fun n => b.queue.any fun x => decide (x.idx = dr n)
  | 0x11 => chanMask fun n => (s.cell n).trimmed
  | 0x12 => put ((b.pdem % 65536).toNat) 16 ||| put b.n 0
  | 0x13 => b.thrlog
  | 0x2E => s.reg 0x0B 0x2E ||| putB b.granted 17 ||| putB (b.queue.any fun x => decide (x.idx.val = 32)) 16
  | _ => 0

/-- Phase codes of LEAF.VISIT. -/
def VPhase.code : VPhase → Nat
  | .none => 0
  | .overlapIn => 1
  | .zero => 2
  | .reference => 3
  | .overlapOut => 4
  | .selfSlot => 5
  | .stopped => 6

def Trim.word (t : Trim) : Word := t.gt ++ t.ot

/-- LEAF words (04_measurement_and_leaf.md). -/
def State.readLeaf (s : State) (o : Nat) : Word :=
  let l := s.leaf
  if 0x80 ≤ o ∧ o < 0x80 + 99 then
    let t := l.trims.toList.getD ((o - 0x80) / 3) ⟨⟨0, 0⟩, ⟨0, 0⟩, ⟨0, 0⟩⟩
    (match (o - 0x80) % 3 with
      | 0 => t.v
      | 1 => t.h
      | _ => t.m).word
  else match o with
  | 0x0C => put l.phase.code 28 ||| put l.ch.toNat 22 ||| put (l.time % 2 ^ 22) 0
  | 0x0D => l.rotcnt
  | 0x0E => l.deferred
  | 0x0F => l.aged
  | 0x10 => l.vfail
  | 0x12 => l.refDiff
  | 0x14 => l.auxt[1] ++ l.auxt[0]
  | 0x15 => l.auxt[3] ++ l.auxt[2]
  | 0x16 => l.auxt[5] ++ l.auxt[4]
  | 0x17 => l.auxt[7] ++ l.auxt[6]
  | _ => 0

/-- One word of a log slot (R197). -/
def State.logWord (s : State) (slot w : Nat) : Word := s.mword .l (32 * (slot % 8192) + 4 * w)

/-- LOG words (06_grading_and_log.md). -/
def State.readLog (s : State) (o : Nat) : Word :=
  if h : 0x20 ≤ o ∧ o < 0x40 then
    let n : Chan := ⟨o - 0x20, by omega⟩
    put s.log.drops[n.val].toNat 16 ||| put (s.unreadOf n) 0
  else if 0x80 ≤ o then s.logWord (s.regF 0x0E 0x0E 0 13 + (o - 0x80) / 8) ((o - 0x80) % 8)
  else match o with
  | 0x08 => put s.logHead 0
  | 0x09 => match s.log.tailReq with
    | some t => put t.toNat 0
    | none => put s.logTail 0
  | 0x0A => put s.fill 0
  | 0x0D => s.log.wrcnt
  | 0x0F => s.log.dropcnt
  | _ => 0

/-- CAP words; the window shows a block of the selected slot. -/
def State.readCap (s : State) (o : Nat) : Word :=
  if 0x80 ≤ o then
    s.mword .c (s.regF 0x0F 0x0B 8 5 * 4096 + 512 * s.regF 0x0F 0x0B 0 3 + 4 * (o - 0x80))
  else match o with
  | 0x08 => chanMask fun n => s.cap.uses[n.val].isSome
  | 0x09 => s.cap.cdmap
  | 0x0A => s.cap.edmap
  | _ => 0

/-- Check unit 1 runs the boot window (R351). -/
def State.bootUnit (s : State) (u : Nat) : Bool := decide (u = 1) && s.hk.imgOpen

/-- CHK words; during the boot window unit 1 shows the words of R351. -/
def State.readChk (s : State) (o : Nat) : Word :=
  if 0x10 ≤ o ∧ o < 0x30 then
    let u := o / 16 - 1
    let x := s.units.toList.getD u .reset
    if s.bootUnit u then
      match o % 16 with
      | 0 => 0xEC1F0000
      | 1 => 0x04C11DB7
      | 2 => 0xFFFFFFFF
      | 3 => 0xFFFFFFFF
      | 10 => put s.hk.nextBlk 0
      | _ => 0
    else match o % 16 with
      | 7 => x.expect
      | 8 => x.result
      | 9 => x.passes
      | 10 => x.seq
      | 12 => x.miscnt
      | k => if k < 7 then s.reg 0x0A o else 0
  else 0

/-- FIX words. -/
def State.readFix (s : State) (o : Nat) : Word :=
  let f := s.fix
  match o with
  | 0x09 => if s.fixEn then put f.state.toNat 0 else 0
  | 0x0B => putB f.ovr 0 ||| put f.ser16.toNat 16
  | 0x0C => f.cycles
  | 0x0D => put f.days.toNat 0
  | 0x0E => put f.pendCnt.toNat 0
  | 0x0F => f.crMax
  | 0x11 => lo64 f.serial
  | 0x12 => hi64 f.serial
  | 0x13 => put f.htype.toNat 0
  | 0x14 => f.cycLim
  | 0x15 => f.cycWarn
  | 0x16 => f.dayLims
  | 0x17 => f.crWarn
  | 0x18 => f.crLim
  | 0x19 => putB f.pass 31 ||| putB f.noKey 30 ||| put f.fails.toNat 0
  | 0x1A => put f.ovrCnt.toNat 0
  | 0x1B => f.ovrTime
  | 0x1C => put f.crRun.toNat 0
  | _ => 0

/-- A word of the integrators, four pins a word. -/
def State.intg (s : State) (j : Nat) : Word :=
  (List.range 4).foldl (fun w m => w ||| put ((s.io.pins.toList.getD (4 * j + m) .reset).integ.toNat) (8 * m)) 0

/-- IO24 words. -/
def State.readIo24 (s : State) (o : Nat) : Word :=
  match o with
  | 0x10 => allPins.foldl (fun w k => w ||| putB s.io.pins[k.val].raw (8 + k.val) ||| putB (s.filtered k) k.val) 0
  | 0x13 => allPins.foldl (fun w k => w ||| putB s.io.pins[k.val].ovlT (8 + k.val) ||| putB s.io.pins[k.val].ovlC k.val) 0
  | 0x15 => s.io.lpv
  | 0x16 => s.intg 0
  | 0x17 => s.intg 1
  | _ => 0

/-- FCOL words. -/
def State.readFcol (s : State) (o : Nat) : Word :=
  let f := s.fcol
  let cap (c : Capture) (k : Nat) : Word := match k with
    | 0 => c.info
    | 1 => c.addr
    | 2 => c.tsl
    | _ => c.tsh
  let rx (x : Option Reaction) (lo : Nat) : Word := match x with
    | none => 0
    | some r => putB true (lo + 15) ||| put r.code (lo + 12) ||| put r.line.val (lo + 7) ||| putB r.settle (lo + 6)
  if 0x20 ≤ o ∧ o < 0x24 then cap f.cor (o - 0x20)
  else if 0x24 ≤ o ∧ o < 0x28 then cap f.con (o - 0x24)
  else if 0x28 ≤ o ∧ o < 0x2C then cap f.fat (o - 0x28)
  else match o with
  | 0x08 => f.clsCor
  | 0x09 => f.clsCon
  | 0x0A => f.clsFat
  | 0x0B => s.chLast
  | 0x0C => putB f.failStop 31 ||| put f.fsLine.val 8 ||| put f.fsCause.toNat 0
  | 0x0E => f.shadowed
  | 0x0F => f.shmap
  | 0x10 => rx f.rxB 16 ||| rx f.rxA 0
  | _ => 0

/-- Ready responses, the held one not among them (R266). -/
def State.readyCount (s : State) : Nat := (s.link.buf.filter (·.ready)).length

/-- LINK words. -/
def State.readLink (s : State) (o : Nat) : Word :=
  let k := s.link
  match o with
  | 0x08 => put k.rspCnt.toNat 16 ||| put k.reqCnt.toNat 0
  | 0x09 => put s.entries.length 24 ||| put s.readyCount 16 ||| put s.freeWords 0
  | 0x0A => bitsOf fun t => s.entries.any fun r => decide (r.tag.toNat = t)
  | 0x0B => bitsOf fun t => k.buf.any fun r => r.ready && decide (r.tag.toNat = t)
  | 0x0C => k.frames
  | 0x0D => put k.crcDisc.toNat 16 ||| put k.othDisc.toNat 0
  | 0x0E => putB (bit (s.reg 0x05 0x01) 0) 7 ||| putB s.fcol.alive 6 ||| putB (!s.faultPin) 5 ||| putB (!s.intN) 4
      ||| putB (s.hgp true) 3 ||| putB (s.hgp false) 2 ||| putB (!s.estop) 1 ||| putB (k.sync.sent && !k.sync.lost) 0
  | 0x0F => k.lastFrm
  | _ => 0

/-- MEM words. -/
def State.readMem (s : State) (o : Nat) : Word :=
  let m := s.memc
  if 0x10 ≤ o ∧ o < 0x16 then m.pecnt.toList.getD (o - 0x10) 0
  else match o with
  | 0x09 => putB m.running 31 ||| put m.bank.toNat 28 ||| put m.group.toNat 0
  | 0x0A => m.mpass
  | 0x0B => m.yields
  | 0x0C => m.skips
  | 0x0D => m.mfail
  | 0x0E => m.bootMarch
  | 0x16 => put m.collmap.toNat 0
  | _ => 0

/-- TYPEw: bit b is 1 for a pulse source. -/
def typeWord (w : Nat) : Word := bitsOf fun b => if h : 32 * w + b < 128 then pulseSource ⟨32 * w + b, h⟩ else false

/-- IRQ words. -/
def State.readIrq (s : State) (o : Nat) : Word :=
  if 0x0C ≤ o ∧ o < 0x10 then s.pendWord (o - 0x0C)
  else if 0x14 ≤ o ∧ o < 0x18 then s.activeWord (o - 0x14)
  else if 0x18 ≤ o ∧ o < 0x1C then typeWord (o - 0x18)
  else match o with
  | 0x08 => 0xFF
  | 0x0A => put s.irq.stack.length 16 ||| put s.level 8 ||| put (((s.irq.stack.getLast?).map (·.src.val)).getD 0xFF) 0
  | 0x0B => s.irq.latch.extractLsb' 96 32
  | 0x1C => s.stackWord 0
  | 0x1D => s.stackWord 1
  | _ => 0

/-- SYS words. -/
def State.readSys (s : State) (o : Nat) : Word :=
  let y := s.sys
  match o with
  | 0x08 => 0x0600201E
  | 0x09 => 0xFFFFFFFF
  | 0x0A => put y.cid.toNat 4 ||| put y.madr.toNat 0
  | 0x0B => put y.stage.toNat 0
  | 0x0C => y.flags
  | 0x0D => Config.verHw.setWidth 32
  | 0x0E => Config.verRom.setWidth 32
  | 0x0F => y.verHk.setWidth 32
  | 0x10 => y.verUcode.setWidth 32
  | 0x11 => s.pairq
  | 0x12 => putB s.limited 31 ||| putB y.listBad 4 ||| putB y.march 3 ||| putB y.unpaired 2 ||| putB y.ovrUsed 1
      ||| putB y.listed 0
  | 0x14 => put y.pairLog.toNat 0
  | 0x15 => y.pairTime
  | 0x16 => y.calBad
  | _ => 0

/-- Life-cycle codes (R451). -/
def Life.code : Life → Nat
  | .blank => 0
  | .factory => 1
  | .calibrated => 2
  | .field => 3
  | .returned => 4

/-- The management target address (R414). -/
def State.mgmtAddr (s : State) : Nat := 0x40 + 4 * s.sys.madr.toNat + s.sys.cid.toNat % 4

/-- Words from offset 0x08 of the other pages. Bits [30:16] of CLK.SYNCSTAT read 0: the manual does not say whether they
copy bit 15 of the offset (log entry 79). -/
def State.readPage (s : State) (p o : Nat) : Word :=
  match p with
  | 0x00 => s.readSys o
  | 0x01 =>
    match o with
    | 0x08 => s.timeL
    | 0x09 => s.timeH
    | 0x0D => putB s.clk.aligned 31 ||| put s.clk.offset.toNat 0
    | 0x0E => s.clk.pllTrim
    | _ => 0
  | 0x02 =>
    match o with
    | 0x08 => put s.pwr.state.code 26 ||| put s.pwr.chosen.code 24 ||| put s.pwr.hold.toNat 0
    | 0x09 => s.pwr.nextEvent
    | 0x0D => put s.pwr.dom.toNat 0
    | 0x0F => s.pwr.wakeSrc
    | 0x10 => s.pwr.nextEv
    | _ => 0
  | 0x03 => s.readIrq o
  | 0x04 => s.readFcol o
  | 0x05 => s.readLink o
  | 0x06 =>
    match o with
    | 0x09 => put s.sys.madr.toNat 8 ||| put s.mgmtAddr 0
    | 0x0B => putB s.mgmt.araDone 16 ||| put s.mgmt.alertSrc.toNat 0
    | 0x0C => s.mgmt.txCnt
    | _ => 0
  | 0x07 => s.readFix o
  | 0x08 => s.readIo24 o
  | 0x09 => s.readMem o
  | 0x0A => s.readChk o
  | 0x0B => s.readBench o
  | 0x0C => s.readLeaf o
  | 0x0D =>
    if h : 0x40 ≤ o ∧ o < 0x60 then s.rcp.stale.extractLsb' (32 * (o - 0x40)) 32
    else match o with
    | 0x08 => s.rcp.edition
    | 0x09 => s.rcp.release
    | 0x0A => s.rcp.lastRej
    | _ => 0
  | 0x0E => s.readLog o
  | 0x0F => s.readCap o
  | 0x10 =>
    match o with
    | 0x08 => putB s.sec.pend.isSome 31 ||| put s.sec.life.code 0
    | 0x0B => s.sec.wipeCnt
    | 0x0C => putB s.secKey.isSome 31
    | 0x0E => putB s.secSeal.isSome 31 ||| put s.overrides.length 0
    | _ => 0
  | 0x11 =>
    match o with
    | 0x0B => putB s.hk.cmd.isSome 31 ||| put s.hk.result.toNat 0
    | 0x0C => s.hk.dieTemp
    | 0x11 => if s.hk.imgOpen then
        0x80000000 ||| putB s.hk.imgEnded 30 ||| put s.hk.badCnt.toNat 16 ||| put s.hk.nextBlk 0
      else putB s.hk.imgEnded 30 ||| put s.hk.badCnt.toNat 16 ||| put s.hk.nextBlk 0
    | _ => 0
  | 0x12 =>
    if 0x80 ≤ o then
      let a := 512 * s.regF 0x12 0x08 0 7 + 4 * (o - 0x80)
      if 0xE000 ≤ a ∧ a < 0xF000 then 0 else s.mword .nvm a
    else 0
  | 0x13 => if h : 0x08 ≤ o ∧ o < 0x6B then s.digest[o - 8] else if o = 0x6B then s.frame else 0
  | _ => 0

/-- A word of the recipe table window (R44). -/
def State.recipeWord (s : State) (p o : Nat) : Word := s.mword .r ((p - 0x80) * 1024 + 4 * o)

/-- The word at page p, offset o, as a master reads it. -/
def State.readWord (s : State) (p o : Nat) : Word :=
  if 0x80 ≤ p ∧ p < 0xA0 then s.recipeWord p o
  else match pageBlk p with
    | none => 0
    | some b =>
      if o < 8 ∧ o ≠ 1 then s.readCommon b o
      else if h : 0x20 ≤ p ∧ p < 0x40 then
        (match regInfo p o with
          | some _ => if o = 0x0B then s.readCell ⟨p - 0x20, by omega⟩ o else s.reg p o
          | none => s.readCell ⟨p - 0x20, by omega⟩ o)
      else if p = 0x40 then
        (match regInfo p o with
          | some _ => s.reg p o
          | none => s.readLeafDrawer o)
      else match regInfo p o with
        | some _ => if p = 0x0A ∨ (p = 0x0B ∧ o = 0x2E) then (if o = 1 then s.reg p o else s.readPage p o) else s.reg p o
        | none => s.readPage p o

/-- n words from offset o upward, all of one snapshot (R52). -/
def State.readWords (s : State) (p o n : Nat) : List Word := (List.range n).map fun i => s.readWord p (o + i)

end Sys2Proof.Machine
end

