-- ==== Sys2Proof/Machine/IrqOps.lean ====
section
/-! DEFINITION. The interrupt controller's claim, EOI, and register effects (09_interrupts.md). -/

namespace Sys2Proof.Machine

/-- Bit i of IRQ.STATUS sets, with the ID involved; IRQ.ERR_CNT counts it and escalates nothing (R296, R297). -/
def irqEvent (i id : Nat) (s : State) : State :=
  (capErr bIrq (BitVec.ofNat 23 ((i + 1) * 2 ^ 20 + id)) (raiseBit bIrq i s)).modCom bIrq fun c =>
    { c with count := c.count + 1 }

/-- The eligible source a claim takes: highest priority at or above L, lowest ID among equals (R283). -/
def State.claimable (s : State) : Option (Fin 128) :=
  (List.finRange 128).foldl (fun best i =>
    if s.eligible i && decide (s.level ≤ s.prio i.val) then
      match best with
      | some b => if s.prio b.val < s.prio i.val then some i else best
      | none => some i
    else best) none

/-- IRQ.CLAIM for a result with no source. -/
def State.noClaim (s : State) (id : Nat) : Word := put s.irq.stack.length 8 ||| put id 0

/-- A claim (R283): the word it returns and its effect. -/
def claim (s : State) : Word × State :=
  if !s.gie then (s.noClaim 0xFF, irqEvent 0 0xFF s)
  else if s.irq.stack.length = 8 then (s.noClaim 0xFE, irqEvent 1 0xFE s)
  else match s.claimable with
    | none => (s.noClaim 0xFF, irqEvent 0 0xFF s)
    | some i =>
      let p := s.prio i.val
      let t : State := { s with irq := { s.irq with
        stack := s.irq.stack ++ [⟨i, BitVec.ofNat 3 p⟩]
        latch := if pulseSource i then s.irq.latch &&& ~~~ (BitVec.ofNat 128 1 <<< i.val) else s.irq.latch } }
      (put p 12 ||| put t.irq.stack.length 8 ||| put i.val 0, t)

/-- The place of source ID v in the stack, counted from the bottom. -/
def State.stackPos (s : State) (v : Nat) : Option Nat := s.irq.stack.findIdx? fun e => decide (e.src.val = v)

/-- An EOI by the host link (R286). -/
def eoi (v : Word) (s : State) : State :=
  let id := fld v 0 8
  match s.stackPos id with
  | none => irqEvent 2 id s
  | some k =>
    let top := decide (k + 1 = s.irq.stack.length)
    let s := { s with irq := { s.irq with stack := s.irq.stack.eraseIdx k } }
    if top then s else irqEvent 3 id s

/-- A claim by the host link that meets the pulse events of its cycle (R283, R284, R292). -/
def opClaim (events : List (Fin 128)) (s : State) : State :=
  let (w, t) := if s.works dBarf then claim s else (s.irq.claimWord, s)
  events.foldl (fun s i => if pulseSource i then irqPulse i s else s) { t with irq := { t.irq with claimWord := w } }

/-- A write of IRQ.SOFTSET: each bit written 1 is an event of its soft source (R278). -/
def softset (v : Word) (s : State) : State :=
  (List.finRange 32).foldl (fun s k => if bit v k.val then irqPulse ⟨96 + k.val, by omega⟩ s else s) s

/-- LOSTCLR of a page counts one lost clear, saturating at 255 (R292). -/
def lostClear (b : Fin 53) (s : State) : State :=
  s.modCom b fun c => { c with lostClr := if c.lostClr = 255 then 255 else c.lostClr + 1 }

/-- A W1C write to PENDw meeting the pulse events of its cycle (R278, R279, R292). -/
def pendClear (w : Fin 4) (v events : Word) (s : State) : State :=
  (List.finRange 32).foldl (fun s b =>
    let i : Fin 128 := ⟨32 * w.val + b.val, by omega⟩
    if pulseSource i && decide (s.prio i.val ≠ 0) then
      let ev := bit events b.val
      let s := if bit v b.val then
        { s with irq := { s.irq with latch := s.irq.latch &&& ~~~ (BitVec.ofNat 128 1 <<< i.val) } } else s
      let s := if ev then irqPulse i s else s
      if ev && bit v b.val then lostClear bIrq s else s
    else s) s

/-- A priority of 0 clears the latch of a pulse source (R279, R293). -/
def prioLatches (s : State) : State :=
  { s with irq := { s.irq with latch := (List.finRange 128).foldl (fun l i =>
      if pulseSource i && decide (s.prio i.val = 0) then l &&& ~~~ (BitVec.ofNat 128 1 <<< i.val) else l) s.irq.latch } }

end Sys2Proof.Machine
end

