-- ==== Sys2Proof/Machine/MemOps.lean ====
section
/-! DEFINITION. Parity errors and their recovery, collisions (11_memories_and_checks.md, R329 to R337, R356). -/

namespace Sys2Proof.Machine

/-- The PECNT word of one bank changed by f. -/
def modPecnt (b : Bank) (f : Word → Word) (v : Vector Word 6) : Vector Word 6 :=
  Vector.ofFn fun i => if i.val = bankCode b then f v[i.val] else v[i.val]

/-- PECNT of a bank counts a parity event. -/
def countParity (b : Bank) (s : State) : State :=
  { s with memc := { s.memc with pecnt := modPecnt b satHi s.memc.pecnt } }

/-- PECNT of a bank counts a check-only event (R336). -/
def checkOnly (b : Bank) (s : State) : State :=
  { s with memc := { s.memc with pecnt := modPecnt b satLo s.memc.pecnt } }

/-- A report that carries a bank word, its reading master and access type (R330). -/
def bankReport (l : Line) (c : FClass) (b : Bank) (a : Nat) (m : Master) (acc : Acc) (s : State) : State :=
  reports [⟨l, c, none, .bank b a, m, acc, false, 0, 0⟩] s

/-- The line a bank's word reports on (R326): in BANK-C the slot's KIND decides. -/
def State.bankLine (s : State) (b : Bank) (a : Nat) : Line :=
  match b with
  | .r => lSramR
  | .l => lSramL
  | .c => if fld (s.mword .c (slotAddr (Fin.ofNat 32 (a / 4096)) 0)) 28 4 = 3 then lEis else lCapture
  | .h => lSramH
  | .s => lSecure
  | .nvm => lNvm

/-- MEM.ERR_CAP takes a bank code and a byte address. -/
def memErr (code a : Nat) (s : State) : State := capErr bMem (BitVec.ofNat 23 (code * 2 ^ 20 + a % 2 ^ 20)) s

/-- Entry e is marked stale (R331). -/
def markStale (e : Fin 1024) (s : State) : State :=
  raiseBit bRcp 1 { s with rcp := { s.rcp with stale := s.rcp.stale ||| BitVec.ofNat 1024 1 <<< e.val } }

/-- The stale mark of entry e. -/
def State.isStale (s : State) (e : Nat) : Bool := s.rcp.stale.getLsbD e

/-- A recovery of this word runs already. -/
def State.recovering (s : State) (b : Bank) (a : Nat) : Bool :=
  s.memc.recov.any fun r => decide (r.bank = b) && decide (r.addr / 4 = a / 4)

/-- A recovery starts; the command that ends it reports. -/
def startRecovery (b : Bank) (a : Nat) (m : Master) (acc : Acc) (s : State) : State :=
  { s with memc := { s.memc with recov := s.memc.recov ++ [⟨b, a, m, acc⟩] } }

/-- The byte address lies in the response buffer or the frame staging of BANK-H (R326). -/
def inLinkBuffers (a : Nat) : Bool := decide (0x18000 ≤ a ∧ a < 0x1C800)

/-- A parity error in BANK-C (R333): a completed point of a sweep that holds the word runs again after the point in progress, a
header word is rewritten, both corrected, and a second detection of a word while its point waits or runs is only counted (R330);
a capture or DCIR use ends with a data count of 0; a use that has ended keeps the word as stored. A word of a point that has not
completed is rewritten with 0 until it does, one past the sweep stays as stored: the manual says neither (log entry 92). -/
def parityC (a : Nat) (m : Master) (acc : Acc) (s : State) : State :=
  let n : Chan := Fin.ofNat 32 (a / 4096)
  let w := a % 4096 / 4
  let rep (c : FClass) (s : State) := bankReport (s.bankLine .c a) c .c a m acc (capErrFree bCap s)
  match s.cap.uses[n.val] with
  | none => rep .contained s
  | some u =>
    if u.kind = 3 then
      if 8 ≤ w then
        let e := (s.cell n).eis
        let k := (w - 8) / 4
        let waits := decide (k ∈ e.again) || decide (e.rerun = some k)
        if waits ∧ w ∈ e.met then s
        else if waits || decide (k < e.points.length) then
          rep .corrected (s.modCell n fun c => { c with eis := { c.eis with
            again := if waits then e.again else e.again ++ [k], met := w :: e.met } })
        else if (s.cell n).seq.step.any fun st => decide (k < eisNpts st.desc[2]) then rep .corrected (putSlot n w 0 s)
        else rep .contained s
      else rep .corrected (putSlot n w (s.headWord n u w) s)
    else
      let s := rep .contained s
      endUse n (putSlot n 0 (slotHead u.kind u.entry n 0) s)

/-- A parity error in BANK-H (R334, R335): one copy of a link buffer word is rewritten from the other; code of an NVM
image is reloaded; code of any other image, data and mailbox restart the core. The restart recovers the words met before it
ends: a word is reported once (R330). -/
def parityH (a : Nat) (m : Master) (acc : Acc) (s : State) : State :=
  if inLinkBuffers a then bankReport lSramH .corrected .h a m acc (memErr 4 a { s with banks := s.banks.heal .h a (a + 4) })
  else if a / 4 ∈ s.hk.mends then s
  else if a < 4 * s.hk.imageLen ∧ s.hk.image = .nvm then startRecovery .h a m acc s
  else
    let s : State := { s with hk := { s.hk with mends := a / 4 :: s.hk.mends } }
    bankReport lSramH .contained .h a m acc (memErr 4 a (restartCore s))

/-- An NVM read that fails three times (R356, R357). -/
def nvmFail (a : Nat) (m : Master) (acc : Acc) (s : State) : State :=
  bankReport lNvm .contained .nvm a m acc (capErrFree bNvm (raiseBit bNvm 0 s))

/-- A parity error in BANK-S: the word is reloaded from the secure partition, contained where the read of that word fails too
(R356); equal data bits are a check-only event (R330, R336). -/
def parityS (a : Nat) (m : Master) (acc : Acc) (s : State) : State :=
  let s := capErrFree bSec (raiseBit bSec 6 (raiseBit bMem 3 s))
  if s.badIn .nvm (0xE000 + a) (0xE000 + a + 4) ≠ [] then
    bankReport lSecure .contained .s a m acc (nvmFail (0xE000 + a) m acc (countParity .nvm s))
  else
    let v := s.mword .nvm (0xE000 + a)
    let same := decide (s.mword .s a = v)
    let s := s.putWord .s a v
    bankReport lSecure .corrected .s a m acc (if same then checkOnly .s s else s)

/-- A read of a bank word that meets a parity error (R330). An NVM word that is bad fails every repeat; else the first good
read completes it (R356). -/
def parityError (b : Bank) (a : Nat) (m : Master) (acc : Acc) (s : State) : State :=
  let s := countParity b s
  match b with
  | .r =>
    let s := raiseBit bMem 3 s
    let e : Fin 1024 := Fin.ofNat 1024 (a / 32)
    if s.isStale e.val then s
    else bankReport lSramR .contained .r a m acc (memErr 1 a (markStale e s))
  | .l =>
    let s := raiseBit bMem 3 s
    if s.recovering .l a then s else startRecovery .l a m acc s
  | .c => parityC a m acc (raiseBit bMem 3 s)
  | .h =>
    let s := raiseBit bMem 3 s
    if s.recovering .h a then s else parityH a m acc s
  | .s => parityS a m acc s
  | .nvm =>
    if s.badIn .nvm a (a + 4) ≠ [] then nvmFail a m acc s
    else bankReport lNvm .corrected .nvm a m acc (checkOnly .nvm (capErrFree bNvm s))

/-- An upset (R329): the word keeps the turned bits and a wrong parity; a soft one of NVM leaves the word as it is. -/
def upset (u : Upset) (s : State) : State :=
  if u.bank = .nvm ∧ !u.hard then s
  else
    let b := s.banks.put u.bank
      (sparsePutMany (bankBlank u.bank) u.addr (bytesLE (s.mword u.bank u.addr ^^^ u.flip)) (s.banks.cells u.bank))
    markBad (u.bank, u.addr) { s with banks := b }

/-- The upsets a command brings. -/
def upsets (l : List Upset) (s : State) : State := l.foldl (fun s u => upset u s) s

/-- A read of n bytes of a bank from address a: each word whose parity is wrong is met (R329, R330). -/
def readParity (b : Bank) (a n : Nat) (m : Master) (acc : Acc) (s : State) : State :=
  (s.badIn b a (a + n)).foldl (fun s w => parityError w.1 w.2 m acc s) s

/-- A read of n bytes of NVM with the soft upsets it meets; the consumer receives a failure where a word is bad. -/
def readNvm (l : List Upset) (a n : Nat) (m : Master) (s : State) : State :=
  let soft := l.filter fun u => decide (u.bank = .nvm) && !u.hard && decide (a ≤ u.addr) && decide (u.addr < a + n)
  readParity .nvm a n m .read (soft.foldl (fun s u => parityError .nvm u.addr m .read s) s)

/-- A read of n bytes of BANK-S: a word whose parity is wrong is reloaded from the secure partition, a read of NVM that may meet
a soft upset (R329, R330, R356). -/
def readSecure (l : List Upset) (a n : Nat) (m : Master) (s : State) : State :=
  let words := s.badIn .s a (a + n)
  let soft := l.filter fun u =>
    decide (u.bank = .nvm) && !u.hard && words.any fun w => decide (0xE000 + w.2 ≤ u.addr ∧ u.addr < 0xE000 + w.2 + 4)
  readParity .s a n m .read (soft.foldl (fun s u => parityError .nvm u.addr m .read s) s)

/-- A read of registers by a master has met the wrong parity of the words it shows, and soft upsets of NVM. -/
def meetParity (l : List Upset) (words : List (Bank × Nat)) (m : Master) (s : State) : State :=
  let soft := l.filter fun u => decide (u.bank = .nvm) && !u.hard && decide ((u.bank, u.addr) ∈ words)
  let s := soft.foldl (fun s u => parityError .nvm u.addr m .read s) s
  (words.eraseDups.filter fun w => decide (w ∈ s.banks.bad)).foldl (fun s w => parityError w.1 w.2 m .read s) s

/-- Words of the link buffers that fail in their first copy alone, as the endpoint reads them: taken from the second copy and
rewritten (R330, R335). -/
def mendLink (l : List Nat) (acc : Acc) (s : State) : State := l.foldl (fun s a => parityError .h a .hostlink acc s) s

/-- Both copies of the word of the link buffers at byte address a fail parity (R330, R335): contained. -/
def linkWordBad (a : Nat) (acc : Acc) (s : State) : State :=
  bankReport lSramH .contained .h a .hostlink acc (memErr 4 a (raiseBit bMem 3 (countParity .h s)))

/-- As `linkWordBad`, where a frame says so, at an address that it does not show (log entry 3). -/
def linkWordLost (acc : Acc) (s : State) : State :=
  let (w, s) := freeWord s
  linkWordBad (0x18000 + 4 * (w.toNat % 4608)) acc s

/-- An owner write met the shared port's write of the same word in the banks of `c` (R337). -/
def collide (c : BitVec 4) (s : State) : State :=
  if c = 0 then s else
    raiseBit bMem 4 { s with memc := { s.memc with collmap := s.memc.collmap ||| c } }

end Sys2Proof.Machine
end

