-- ==== Sys2Proof/Machine/Sequencer.lean ====
section
/-! DEFINITION. The channel sequencer: a step's setpoint and its request, the commands of CMD, and CFG
writes (05_recipe_engine.md, R144 to R174; 03_power_stage.md, R66 to R76). -/

namespace Sys2Proof.Machine

/-! ### Clamps and estimates -/

/-- A rational limited to an interval. -/
def clampQ (lo hi x : Rat) : Rat := if x < lo then lo else if hi < x then hi else x

/-- R146: clamped to the gang full scale of the step's range. -/
def State.clampFs (s : State) (n : Chan) (st : Step) (x : Int) : Int :=
  clampI (-(s.gangFs n st.range)) (s.gangFs n st.range) x

/-- R81: clamped to −IDIS_MAX .. +ICHG_MAX of the leader. -/
def State.clampHard (s : State) (n : Chan) (x : Int) : Int := clampI (-(s.limit n 0x23)) (s.limit n 0x22) x

/-- i_e of R217, before its clamps. -/
def State.estCurrent (s : State) (n : Chan) (st : Step) : Rat :=
  let v := (s.cell n).fv
  let w1 := st.w1
  let w2 := st.w2
  match st.typ with
  | 1 => w1
  | 3 => w1
  | 2 => if v < w1 then (w2.natAbs : Int) else -(w2.natAbs : Int)
  | 5 => -(min ((v * 1000000 : Int) / (w1 : Rat)) ((w2.natAbs : Int) : Rat))
  | 6 => if w1.natAbs < w2.natAbs then w2 else w1
  | 7 => w2
  | 8 => if 0 ≤ w1 then ((w1 + w2 : Int) : Rat) else ((w1 - w2 : Int) : Rat)
  | _ => 0

/-- The estimate of a step, cell-side mW (R217). -/
def State.estimate (s : State) (n : Chan) (st : Step) : Int :=
  if st.typ = 4 then st.w1
  else
    let fs : Rat := s.gangFs n st.range
    let i := clampQ (-(s.limit n 0x23)) (s.limit n 0x22) (clampQ (-fs) fs (s.estCurrent n st))
    let e := i * (s.cell n).fv / 1000000000
    roundFree e.num e.den

/-- The step's request: true when it is admitted at once. The estimate of an earlier step ends (R215, R219). `replaces`: its
running step is replaced, or goes on after PAUSE, which R218 does not name (log entry 95). -/
def sendRequest (n : Chan) (st : Step) (replaces : Bool) (s : State) : Bool × State :=
  let s := s.modCell n fun c => match c.contr with
    | .est _ _ _ => { c with contr := .meas, cval := s.benchSide c.fp }
    | _ => c
  request { idx := dr n, prio := st.prio, est := s.estimate n st, arrived := s.bench.tick, waited := 0, stalled := false
            replaces := replaces } s

/-! ### Setpoint and paths -/

/-- TUNE_CTRL.DT_FIXED. -/
def State.dtFixed (s : State) (n : Chan) : Bool := bit (s.chReg n.val 0x40) 1

/-- DTFIX, DTMAX and DTMIN as the device takes them (R83). -/
def State.dtFix (s : State) (n : Chan) : Nat := clampN 5 60 (fld (s.chReg n.val 0x44) 24 6)
def State.dtMax (s : State) (n : Chan) : Nat := clampN 5 60 (fld (s.chReg n.val 0x44) 16 6)
def State.dtMin (s : State) (n : Chan) : Nat := min (s.dtMax n) (clampN 5 60 (fld (s.chReg n.val 0x44) 8 6))

/-- Dead times at the start of switching (R84): DTMAX, or DTFIX with DT_FIXED. -/
def State.startDt (s : State) (n : Chan) : Word :=
  let d := if s.dtFixed n then s.dtFix n else s.dtMax n
  put d 16 ||| put d 0

/-- ILOOP.SLEW, mA/µs. -/
def State.slew (s : State) (n : Chan) : Nat := clampN 1 2000 (fld (s.chReg n.val 0x42) 16 16)

/-- Samples from the load to t_a of R75: the slew from the present reference to i, and 10 µs. A gang slews its phases
(log entry 85). -/
def State.enableAt (s : State) (n : Chan) (i : Int) : Nat :=
  let d : Nat := (((s.cell n).ps.iref - i).natAbs + 1000 * s.slew n * s.gangG n - 1) / (1000 * s.slew n * s.gangG n)
  (d + 29) / 20

/-- The paths of channel k when a setpoint in range r applies (R73 to R76, R87). `lead`: k holds the step; in TRICKLE the
other members' half-bridges take part in the handover of R75 and stop with it. `ta`: samples to the start of the trickle
stage, which a step in HIGH or MID calls off (R72). Where an earlier switch still runs, RSW stays 1 and the switch goes on to
the newest range: the manual names only steps that open the cell there (log entry 95). A channel unit whose domain has failed
drives none (R360). -/
def startPath (r ta : Nat) (lead : Bool) (k : Chan) (s : State) : State :=
  let p := (s.cell k).ps
  if !s.unitOn k then s
  else if r = 2 then
    if !lead then
      if p.switching then s.modPs k fun p => { p with rsw := true, toZero := false } else stopPaths k s
    else s.modPs k fun p =>
      if p.switching then
        { p with rsw := true, toZero := false, enable := if p.trickleOn then none else some ta }
      else { p with trickleOn := true, toZero := false, rsw := false, src := 2 }
  else if p.trickleOn then
    s.modPs k fun p => { p with
      rsw := true, switching := true, toZero := false, src := BitVec.ofNat 2 r
      dtAct := if p.switching then p.dtAct else s.startDt k }
  else if p.switching then
    s.modPs k fun p =>
      let p := { p with toZero := false, enable := none }
      if p.src.toNat = r then p else { p with rsw := true, src := if r = 0 then 0 else p.src }
  else
    s.modPs k fun p => { p with switching := true, toZero := false, rsw := false, src := BitVec.ofNat 2 r
                                dtAct := s.startDt k }

/-- The current setpoint a running step has now, µA; none where the outer loop regulates V or a ramp forms it (R145). In CP
and CR it is the outer loop's, P / V and −V / R within the limit, of the frame value of V (log entry 86); at V = 0, where P / V has
no value, CP keeps its reference (log entry 95). -/
def State.ownRef (s : State) (n : Chan) (st : Step) : Option Int :=
  let c := s.cell n
  let lim : Int := st.w2.natAbs
  match st.typ with
  | 1 => if st.w[3] = 0 then some st.w1 else none
  | 3 => if c.seq.cvph then none else some st.w1
  | 4 => if c.fv = 0 then none else some (clampI (-lim) lim (roundFree (st.w1 * 1000000000) c.fv))
  | 5 => some (-(clampI 0 lim (roundFree (c.fv * 1000000) st.w1)))
  | 6 => some (if c.seq.levelB then st.w2 else st.w1)
  | 7 => some (if c.dcir.phase = 2 then st.w2 else st.w1)
  | 8 => some st.w1
  | 9 => if bit st.w[3] 31 then some st.w2 else none
  | _ => none

/-- The current limit of a step whose reference the outer loop forms, µA. -/
def Step.bound (st : Step) : Int := if st.typ = 3 then st.w1.natAbs else st.w2.natAbs

/-- The voltage reference of the running step, µV: none where it regulates no voltage. -/
def State.vSet (s : State) (n : Chan) (st : Step) : Option Int :=
  if st.typ = 2 then some st.w1
  else if st.typ = 3 ∧ (s.cell n).seq.cvph then some st.w2
  else if st.typ = 9 ∧ bit st.w[3] 31 = false then some st.w1
  else none

/-- The voltage reference in force: between VMIN + 1,000 µV and VMAX − 1,000 µV (R81). -/
def State.vRef (s : State) (n : Chan) (st : Step) : Option Int :=
  (s.vSet n st).map (clampI (s.limit n 0x21 + 1000) (s.limit n 0x20 - 1000))

/-- The current magnitudes of a step that R146 limits. -/
def Step.limits (st : Step) : List Int :=
  match st.typ with
  | 1 => [st.w1]
  | 3 => [st.w1]
  | 2 => [st.w2]
  | 4 => [st.w2]
  | 5 => [st.w2]
  | 6 => [st.w1, st.w2]
  | 7 => [st.w1, st.w2]
  | 8 => [st.w1]
  | 9 => [st.w2]
  | _ => []

/-- A demand of x on channel k: PS_LIVE.LIMCLAMP follows whether R81 alters it, with its event. -/
def noteClamp (k : Chan) (x : Int) (on : Bool) (s : State) : State :=
  let s := s.modPs k fun p => { p with limclamp := on, want := x }
  if on then psEvt k (bitW 19) s else s

/-- The amplitude of an EIS step, and whether R206 reduced it. -/
def State.eisAmp (s : State) (n : Chan) (st : Step) : Int × Bool :=
  let room := max 0 (s.gangFs n st.range - st.w1.natAbs)
  (min (st.w2.natAbs : Int) room, decide (room < (st.w2.natAbs : Int)))

/-- The clamp of R81 alters a demand of y, or one that an EIS step's perturbation swings around y. -/
def State.hardClamps (s : State) (n : Chan) (st : Step) (y : Int) : Bool :=
  let a := if st.typ = 8 then (s.eisAmp n st).1 else 0
  decide (s.clampHard n (y + a) ≠ y + a) || decide (s.clampHard n (y - a) ≠ y - a)

/-- A current reference of the gang of n: clamped under R146 and R81, shared under R87, each member's share within the member's
own limits (R88); LIMCLAMP follows R81. In TRICKLE the leader alone drives. The share is kept in whole µA, truncated towards
zero, for which the manual gives no rule (log entry 79). -/
def setReference (n : Chan) (st : Step) (x : Int) (s : State) : State :=
  let y := s.clampFs n st x
  let z := s.clampHard n y
  let s := noteClamp n y (s.hardClamps n st y || s.vRef n st != s.vSet n st) s
  let share := if st.range = 2 then 0 else truncZ z (s.gangG n)
  forChans (s.gangOf n) (fun k s =>
    if k = n then setIref k z s
    else
      let w := s.clampHard k share
      setIref k w (noteClamp k share (decide (w ≠ share)) s)) s

/-- The reference with which a setpoint begins: the step's own, or the present one, from which the ramp of CC goes on, and the
outer loop within the step's limit (R145). -/
def State.nextRef (s : State) (n : Chan) (st : Step) : Int :=
  let i := (s.cell n).ps.iref
  (s.ownRef n st).getD (if st.typ = 1 then i else clampI (-st.bound) st.bound i)

/-- The step's reference applies, and a level of PULSE or the base time of DCIR begins. After RESUME the time of a level or base
begins anew, for which the manual gives no rule (log entry 92): the V0 window then lies after the PAUSE (R203). -/
def applyReference (n : Chan) (st : Step) (s : State) : State :=
  let s := s.modCell n fun c => { c with
    seq := { c.seq with levelT := -(c.meas.got.length : Int) }
    dcir := { c.dcir with spoiled := c.dcir.spoiled && decide (c.dcir.phase ≠ 1) } }
  setReference n st (s.nextRef n st) s

/-- Whether R64 keeps the half-bridge from switching for this step. -/
def State.lowV (s : State) (n : Chan) (st : Step) : Bool :=
  !st.open && decide (st.range ≠ 2) && decide ((s.cell n).fv < 300000)

/-- Zero current under R64: the half-bridges stop, a trickle stage that conducts ramps to 0, a demand that the clamp of R81 does
not alter. -/
def holdLowV (n : Chan) (s : State) : State :=
  let s := forChans (s.gangOf n) (fun k s =>
    if (s.cell k).ps.trickleOn then s.modPs k fun p =>
      { p with toZero := true, rsw := false, switching := false, limclamp := false, want := 0, enable := none }
    else stopPaths k s) s
  psEvt n (bitW 18) s

/-- The step's setpoint applies, or the range switch that leads to it begins (R73, R168). Below 0.3 V no half-bridge takes part
in a switch to TRICKLE (R64). -/
def applySetpoint (n : Chan) (st : Step) (s : State) : State :=
  if st.open then rampToZero n s
  else if s.lowV n st then holdLowV n s
  else
    let s := if st.range = 2 ∧ (s.cell n).fv < 300000 then forChans (s.gangOf n) stopHalf s else s
    let ta := s.enableAt n (s.clampHard n (s.clampFs n st (s.nextRef n st)))
    let s := forChans (s.gangOf n) (fun k s =>
      (startPath st.range ta (decide (k = n)) k s).modPs k fun p => { p with moved := p.moved || p.rsw }) s
    let s := if st.limits.any fun x => decide (s.clampFs n st x ≠ x) then psEvt n (bitW 19) s else s
    let s := if st.typ = 8 then
        let clip := (s.eisAmp n st).2
        let s := if clip then psEvt n (bitW 19) s else s
        s.modCell n fun c => { c with eis := { c.eis with clip := clip } }
      else s
    if (s.gangOf n).any fun k => (s.cell k).ps.rsw then s else applyReference n st s

/-- The step's setpoint applies at this frame end, and its estimate counts from here; with a range switch both wait for its
end (R73, R215). -/
def beginSetpoint (n : Chan) (st : Step) (s : State) : State :=
  let s := applySetpoint n st s
  if (s.gangOf n).any fun k => (s.cell k).ps.rsw then s else estApplies 2 n s

/-- A queued step's admission reaches the channel; the setpoint applies at the next frame boundary (R221). -/
def admittedCh (n : Chan) (s : State) : State := s.modSeq n fun q => { q with phase := .admitted }

/-- A start request waits (R169): the channel holds zero current, STATUS.QUEUED in every channel of the gang. -/
def waitQueued (n : Chan) (s : State) : State :=
  let s := rampToZero n (s.modSeq n fun q => { q with phase := .queued })
  forChans (s.gangOf n) (fun k s => raiseBit (chB (dr k)) 10 s) s

/-! ### Commands of CMD (R160 to R165) -/

/-- A refused or discarded command (R161, R177, R178). -/
def refuse (n : Chan) (cmd code : Nat) (s : State) : State :=
  let s := s.modSeq n fun q => { q with rej := BitVec.ofNat 5 code, rejCmd := BitVec.ofNat 3 cmd }
  let s := { s with rcp := { s.rcp with lastRej := put code 27 ||| put cmd 24 ||| put n.val 0 } }
  raiseBit bRcp 3 (raiseBit (chB (dr n)) 4 s)

/-- CTRL.EN of the channel and of the recipe engine, and no FAIL_STOP (code 2). -/
def State.enabled (s : State) (n : Chan) : Bool :=
  bit (s.chReg n.val 0x01) 0 && bit (s.reg 0x0D 0x01) 0 && !s.fcol.failStop

/-- The fixture check of code 7. -/
def State.fixturePass (s : State) (n : Chan) : Bool :=
  !bit (s.chReg n.val 0x2F) 0 ||
    (s.fixEn && (decide (s.fix.state = 2 ∨ s.fix.state = 3) || (decide (s.fix.state = 4) && s.fix.ovr)))

/-- The contact resistance check of code 9. -/
def State.contactPass (s : State) (n : Chan) : Bool :=
  let m := (s.cell n).meas
  decide (s.chReg n.val 0x2E = 0) || !m.cresValid || decide (m.cres.toInt ≤ (s.chReg n.val 0x2E).toInt)

/-- Entry e lies in the window of channel n (R172). -/
def State.inWindow (s : State) (n : Chan) (e : Nat) : Bool :=
  let w := s.chReg n.val 0x2D
  decide (fld w 0 10 ≤ e) && decide (e ≤ fld w 16 10)

/-- STEP_PC.START. -/
def State.startEntry (s : State) (n : Chan) : Fin 1024 := Fin.ofNat 1024 (s.regF (0x20 + n.val) 0x0B 0 10)

/-- The checks of R161 for ARM and START after the state check: the first that fails. -/
def State.startChecks (s : State) (n : Chan) (start : Bool) : Option Nat :=
  if !s.enabled n then some 2
  else if s.member n then some 3
  else if s.gangErr n then some 4
  else if s.estopBlocks then some 5
  else if s.limited then some 6
  else if !s.fixturePass n then some 7
  else if bit (s.chReg n.val 0x2F) 1 && s.syncLost then some 8
  else if !s.contactPass n then some 9
  else if start && !s.inWindow n (s.startEntry n).val then some 10
  else none

/-- A channel that enters ARMED, RUN or HOLD while VDDP undervoltage holds enters SAFE (R94). -/
def vddpGuard (n : Chan) (s : State) : State := if s.sup.vddpUv then enterSafe n s else s

/-- ARM. In ARMED, where it does nothing, the later checks of R161 still run and can refuse it, as those of CLEAR do in IDLE: the
manual does not say which goes first (log entry 95). -/
def opArm (n : Chan) (s : State) : State :=
  let st := (s.cell n).seq.state
  if st ≠ .idle ∧ st ≠ .done ∧ st ≠ .armed then refuse n 7 1 s
  else match s.startChecks n false with
    | some c => refuse n 7 c s
    | none => if st = .armed then s else vddpGuard n (setState n .armed s)

/-- The counters and results START clears (R162). -/
def clearForStart (n : Chan) (s : State) : State :=
  let e := s.startEntry n
  let s := forChans (s.gangOf n) (fun k s => s.modCell k fun c =>
    { c with tot := { c.tot with cap := 0, net := 0 }, ps := { c.ps with pkCnt := 0 } }) s
  s.modCell n fun c =>
    { c with
        dcir := { c.dcir with stat := 0, r1 := 0x80000000, r2 := 0x80000000, v0 := 0, i0 := 0, di1 := 0, di2 := 0
                              last1 := none, last2 := none }
        seq := { c.seq with loops := Vector.replicate 4 0, pc := e, next := .load e, step := none, phase := .off
                            lastQ := [], jumpQ := [], jumpF := (0, 0, 0), prevQ := [], vHist := [], iHist := [], cvph := false } }

/-- START. -/
def opStart (n : Chan) (s : State) : State :=
  let st := (s.cell n).seq.state
  if st ≠ .idle ∧ st ≠ .done ∧ st ≠ .armed then refuse n 1 1 s
  else match s.startChecks n true with
    | some c => refuse n 1 c s
    | none => vddpGuard n (setState n .run (clearForStart n s))

/-- STOP (R165). -/
def opStop (n : Chan) (s : State) : State :=
  let st := (s.cell n).seq.state
  if st ≠ .armed ∧ st ≠ .run ∧ st ≠ .hold then refuse n 2 1 s
  else if s.member n then refuse n 2 3 s
  else if st = .armed then setState n .idle s
  else
    let s := spoilDcir n s
    let s := if (s.step n).isSome then endStep n 3 (s.cell n).seq.tw.toNat false s else s
    let s := withdrawCh n (decayContr n (rampToZero n s))
    let s := stopOff (s.modSeq n fun q => { q with next := .none, phase := .off })
    setState n .done s

/-- What PAUSE and a stale hold do to the current and the request (R164, R175). -/
def suspend (n : Chan) (s : State) : State :=
  let s := withdrawCh n (rampToZero n (discardPoint n (spoilDcir n s)))
  stopOff (s.modSeq n fun q => { clearCounts q with phase := .off })

/-- PAUSE. -/
def opPause (n : Chan) (s : State) : State :=
  if (s.cell n).seq.state ≠ .run then refuse n 3 1 s
  else if s.member n then refuse n 3 3 s
  else
    let s := (suspend n s).modSeq n fun q =>
      { q with next := match q.next with
        | .load e => .follow e
        | x => x }
    setState n .hold s

/-- A kept step continues through admission (R164, R170). -/
def resumeStep (n : Chan) (st : Step) (s : State) : State :=
  let s := setState n .run s
  if st.requests then
    let s := { s with bench := { s.bench with tick := s.bench.tick + 1 } }
    let (now, s) := sendRequest n st true s
    if now then admittedCh n s else waitQueued n s
  else admittedCh n s

/-- RESUME. -/
def opResume (n : Chan) (s : State) : State :=
  if (s.cell n).seq.state ≠ .hold then refuse n 4 1 s
  else if s.member n then refuse n 4 3 s
  else match (s.cell n).seq.next, s.step n with
    | .stale _, _ => s
    | .follow e, _ => vddpGuard n (setState n .run (s.modSeq n fun q => { q with next := .load e }))
    | _, some st => vddpGuard n (resumeStep n st s)
    | _, none => vddpGuard n (setState n .run s)

/-- SAFE: refused in SAFE, accepted without effect in FAULT (R160). -/
def opSafe (n : Chan) (s : State) : State :=
  if (s.cell n).seq.state = .safe then refuse n 5 1 s else enterSafe n s

/-- CLEAR. -/
def opClear (n : Chan) (s : State) : State :=
  let st := (s.cell n).seq.state
  if (st ≠ .idle ∧ st ≠ .safe ∧ st ≠ .fault ∧ st ≠ .done) ∨ s.ramping n then refuse n 6 1 s
  else if s.fcol.failStop then refuse n 6 2 s
  else if s.member n then refuse n 6 3 s
  else if s.estopBlocks then refuse n 6 5 s
  else setState n .idle s

/-- A write of CMD with a code (R56). -/
def command (n : Chan) (code : Nat) (s : State) : State :=
  match code with
  | 1 => opStart n s
  | 2 => opStop n s
  | 3 => opPause n s
  | 4 => opResume n s
  | 5 => opSafe n s
  | 6 => opClear n s
  | 7 => opArm n s
  | _ => s

/-! ### CFG (R66, R67) -/

/-- A write of CFG, its old state taken from before the internal cycle. -/
def cfgWrite (n : Chan) (v : Word) (pre : ChState) (s : State) : State :=
  if pre.live then psEvt n (bitW 15) s
  else
    let old := s.cfg n.val
    let t := changeCfg (fun s => s.setReg (0x20 + n.val) 0x08 (cfgFix old (mix old v 0x03F3F333))) s
    let t := forChans (t.gangOf n) noteFsw t
    if t.formed n ∧ ¬ s.formed n then formGang n t else t

end Sys2Proof.Machine
end

