-- ==== Sys2Proof/Machine/Recipe.lean ====
section
/-! DEFINITION. The recipe engine: compared quantities, termination words, loads, control steps, transitions
(05_recipe_engine.md, R140 to R175). -/

namespace Sys2Proof.Machine

/-! ### Quantities (R148, R149) -/

/-- The slope of a history, newest first, over windows of w frames, per second, ties away from zero; none before 2 × w
frames. -/
def slope (h : List Int) (w : Nat) : Option Int :=
  if w = 0 ∨ h.length < 2 * w then none
  else some (roundAway (((h.take w).sum - ((h.drop w).take w).sum) * 1000) ((w : Int) * w))

/-- Whole mA·s or mW·s of an accumulator, truncated towards zero. -/
def accMilli (a : BitVec 96) : Int := Int.tdiv a.toInt (2 ^ 32 * 1000)

/-- STEP_Q and STEP_E saturate (R184). -/
def satStep (x : Int) : Int := clampI (-(2 ^ 31 - 1)) (2 ^ 31 - 1) x

/-- The compared values of channel n, by QTY 0 to 13; none where undefined. `w` is the slope window in force. -/
def State.quantities (s : State) (n : Chan) (w : Nat) : List (Option Int) :=
  let c := s.cell n
  [ none, some c.fv, some c.fi, some c.ftemp, some (c.seq.stepT : Int)
  , some (satStep (accMilli c.tot.stepQ)), some (satStep (accMilli c.tot.stepE))
  , slope c.seq.vHist w, slope c.seq.iHist w
  , c.seq.peak.map fun p => max 0 (p - c.fv)
  , some ((accMilli c.tot.cap).natAbs : Int)
  , if c.meas.cresValid then some c.meas.cres.toInt else none
  , c.dcir.last1, c.dcir.last2 ]

/-! ### Termination words -/

/-- Fields of a termination word. -/
def tQty (w : Word) : Nat := fld w 0 6
def tCmp (w : Word) : Nat := fld w 6 3
def tAct (w : Word) : Nat := fld w 9 3
def tTarget (w : Word) : Fin 1024 := Fin.ofNat 1024 (fld w 12 10)
def tSlot (w : Word) : Nat := fld w 22 6
def tQual (w : Word) : Nat := 4 ^ fld w 28 2
def tHys (w : Word) : Int :=
  match fld w 30 2 with
  | 0 => 0
  | 1 => 1
  | 2 => 4
  | _ => 16

/-- H of R148, in a range and a gang of g. -/
def hysUnit (qty range g : Nat) : Int :=
  match qty with
  | 1 => 50
  | 2 => (match range with
    | 0 => 20000
    | 1 => 2000
    | _ => 25) * g
  | 3 => 5
  | 7 => 10
  | 8 => 100
  | 9 => 50
  | 11 => 50
  | _ => 0

/-- The threshold a pool word holds: unsigned for CAP and STEP_T's word as signed (R148). -/
def threshold (qty : Nat) (p : Word) : Int := if qty = 10 then p.toNat else p.toInt

/-- x CMP thr for CMP 0 to 3. -/
def holds (cmp : Nat) (x thr : Int) : Bool :=
  match cmp with
  | 0 => decide (x < thr)
  | 1 => decide (x ≤ thr)
  | 2 => decide (thr ≤ x)
  | _ => decide (thr < x)

/-- One evaluation of a word (R150). -/
def evalTerm (cmp : Nat) (x thr h : Int) (t : Term) : Term :=
  if cmp ≤ 3 then
    if holds cmp x thr then { t with count := t.count + 1 }
    else if cmp ≤ 1 ∧ thr + h ≤ x then { t with count := 0 }
    else if 2 ≤ cmp ∧ x ≤ thr - h then { t with count := 0 }
    else t
  else
    let side := decide (thr ≤ x)
    let s0 := t.side.getD side
    let t := { t with side := some s0 }
    let d : Int := (x - thr).natAbs
    if side ≠ s0 ∧ h ≤ d then { t with count := t.count + 1 }
    else if side = s0 ∧ h < d then { t with count := 0 }
    else t

/-- Word j of a running step evaluated in one frame: its qualification, and whether it has fired. In a CCCV step a word
on I is evaluated only in the CV phase (R152). -/
def evalWord (st : Step) (cv : Bool) (g : Nat) (cur : List (Option Int)) (j : Fin 4) (t : Term) : Term × Bool :=
  let w := st.w[4 + j.val]
  let q := tQty w
  if q = 14 then (t, true)
  else if q = 0 ∨ 14 < q ∨ (st.typ = 3 ∧ q = 2 ∧ ¬ cv) then (t, false)
  else match cur.getD q none with
    | none => (t, false)
    | some x =>
      let t := evalTerm (tCmp w) x (threshold q st.pool[j.val]) (tHys w * hysUnit q st.range g) t
      (t, decide (tQual w ≤ t.count))

/-- The word of a JUMP that acts: its comparison holds once, HYS and QUAL ignored (R156). -/
def jumpHolds (st : Step) (cur prev : List (Option Int)) (j : Fin 4) : Bool :=
  let w := st.w[4 + j.val]
  let q := tQty w
  if q = 14 then true
  else if q = 0 ∨ 14 < q then false
  else match cur.getD q none with
    | none => false
    | some x =>
      let thr := threshold q st.pool[j.val]
      if tCmp w ≤ 3 then holds (tCmp w) x thr
      else match prev.getD q none with
        | none => false
        | some y => decide (thr ≤ x) != decide (thr ≤ y)

/-! ### WAIT (R158) -/

def Step.waitSrc (st : Step) : Nat := if 4 < fld st.w[1] 0 4 then 0 else fld st.w[1] 0 4
def Step.waitLevel (st : Step) : Bool := bit st.w[1] 4
def Step.waitEdge (st : Step) : Bool := bit st.w[1] 5
def Step.waitPin (st : Step) : Fin 8 := Fin.ofNat 8 (fld st.w[1] 8 3)

/-- The present level of a WAIT's source. -/
def State.sourceLevel (s : State) (st : Step) : Bool :=
  match st.waitSrc with
  | 1 => s.hgp false
  | 2 => s.hgp true
  | 3 => s.filtered st.waitPin
  | _ => false

/-- A WAIT's source is satisfied. A level without EDGE is that at the end of the frame: whether one that held inside it satisfies
the frame the manual leaves open (log entry 95). -/
def State.waitDone (s : State) (n : Chan) (st : Step) : Bool :=
  match st.waitSrc with
  | 0 => bit s.rcp.release n.val
  | 4 => s.clk.aligned && !s.syncLost
  | _ => if st.waitEdge then (s.cell n).seq.waitHit else s.sourceLevel st == st.waitLevel

/-- A WAIT with EDGE notes the changes of its source. -/
def noteWait (n : Chan) (s : State) : State :=
  match s.step n with
  | none => s
  | some st =>
    if st.typ ≠ 12 then s else
      let l := s.sourceLevel st
      let q := (s.cell n).seq
      if l = q.waitLast then s
      else s.modSeq n fun q => { q with waitLast := l, waitHit := q.waitHit || (l == st.waitLevel) }

/-! ### Loads (R140, R141, R147, R172, R175, R204) -/

/-- Pool word of a termination word of entry e (R140). -/
def State.poolWord (s : State) (e : Fin 1024) (w : Word) : Word :=
  s.mword .r (e.val / 32 * 1024 + 4 * (0xC0 + tSlot w))

/-- The entry that holds a pool word. -/
def poolEntry (e : Fin 1024) (w : Word) : Fin 1024 := Fin.ofNat 1024 (e.val / 32 * 32 + 24 + tSlot w / 8)

/-- The word names a pool word. -/
def usesPool (w : Word) : Bool := decide (1 ≤ tQty w) && decide (tQty w ≤ 13)

/-- The sweep descriptor's entry of an EIS step. -/
def Step.descEntry (st : Step) : Fin 1024 := Fin.ofNat 1024 (fld st.w[3] 0 10)

/-- The words a load of entry e copies into the shadow, DTWIN as it stands. -/
def State.fetchStep (s : State) (e : Fin 1024) : Step :=
  let w : Vector Word 8 := Vector.ofFn fun i => s.mword .r (32 * e.val + 4 * i.val)
  let d : Fin 1024 := Fin.ofNat 1024 (fld w[3] 0 10)
  { entry := e, w := w
    pool := Vector.ofFn fun j => if usesPool w[4 + j.val] then s.poolWord e w[4 + j.val] else 0
    desc := Vector.ofFn fun i => if fld w[0] 0 4 = 8 then s.mword .r (32 * d.val + 4 * i.val) else 0
    dtwin := s.regF 0x0D 0x0B 0 16 }

/-- The words a load reads, as byte addresses in BANK-R and lengths: its entry, the pool words that its termination words name,
and a sweep descriptor (R140, R141, R204). -/
def State.loadWords (s : State) (n : Chan) (st : Step) : List (Nat × Nat) :=
  let ws := [st.w[4], st.w[5], st.w[6], st.w[7]].filter usesPool
  let desc := if st.typ = 8 ∧ s.inWindow n st.descEntry.val then [(32 * st.descEntry.val, 16)] else []
  (32 * st.entry.val, 32) :: (ws.map fun w => (st.entry.val / 32 * 1024 + 4 * (0xC0 + tSlot w), 4)) ++ desc

/-- The entries a load reads. -/
def State.loadReads (s : State) (n : Chan) (st : Step) : List (Fin 1024) :=
  let ws := [st.w[4], st.w[5], st.w[6], st.w[7]].filter usesPool
  let desc := if st.typ = 8 ∧ s.inWindow n st.descEntry.val then [st.descEntry] else []
  (st.entry :: ws.map (poolEntry st.entry) ++ desc).eraseDups

/-- The load needs an entry that is stale. -/
def State.needsStale (s : State) (n : Chan) (st : Step) : Bool := (s.loadReads n st).any fun e => s.isStale e.val

/-- The load fails with BADSTEP (R147). -/
def Step.bad (st : Step) : Bool :=
  let badTerm (w : Word) : Bool :=
    let q := tQty w
    decide (14 < q) || (usesPool w && (decide (4 < tCmp w) || decide (5 < tAct w)))
      || (decide (q = 14) && decide (5 < tAct w))
  decide (st.typ = 15)
    || (!st.control && decide (st.typ ≠ 9) && decide (fld st.w[0] 6 2 = 3))
    || (decide (st.typ = 5) && decide (st.w1 ≤ 0))
    || (decide (st.typ = 10) && decide (2 ≤ fld st.w[1] 4 2))
    || [st.w[4], st.w[5], st.w[6], st.w[7]].any badTerm

/-- ERR_CAP and the RECIPE report of a recipe failure at entry e (R166, R177). -/
def recipeError (n : Chan) (e : Fin 1024) (s : State) : State :=
  blockError (chB (dr n)) (13 * 2 ^ 19 + e.val * 2 ^ 9 + s.frameBits 9) lRecipe .contained (some n) .none e.val s

/-- A load failure; its record carries the frame whose end began the transition (R166, R190). -/
def loadFail (n : Chan) (reason : Byte) (e : Fin 1024) (s : State) : State :=
  let (v, i, t) := (s.cell n).seq.jumpF
  let s := pushRecord { ch := n, entry := e, reason := reason.toNat, ms := 0, maxT := t, endI := i
                        endV := v, minV := v, q := 0, e := 0 } s
  let s := s.modSeq n fun q => { q with reason := reason, endEntry := e }
  recipeError n e (safeWith none true true n s)

/-- A stale hold at entry e (R175). -/
def staleHold (n : Chan) (e : Fin 1024) (s : State) : State :=
  let s := (suspend n s).modSeq n fun q => { q with next := .stale e }
  raiseBit (chB (dr n)) 6 (setState n .hold s)

/-- The checks of a load; `k` goes on with the step. A word it reads whose parity is wrong marks its entry stale (R331). Where
several reasons hold, the order of the checks is the model's (log entry 97). -/
def checkLoad (n : Chan) (e : Fin 1024) (s : State) (k : Step → State → State) : State :=
  if !s.inWindow n e.val then loadFail n 7 e s
  else
    let st := s.fetchStep e
    let s := (s.loadWords n st).foldl (fun s r => readParity .r r.1 r.2 .recipe .read s) s
    if s.needsStale n st then staleHold n e s
    else if st.bad then loadFail n 8 e s
    else if st.typ = 8 ∧ ¬ s.inWindow n st.descEntry.val then loadFail n 7 e s
    else k st s

/-- PROFILE and RANGE of the step reach CFG, and the frequency in force is determined (R68, R71). -/
def loadCfg (n : Chan) (st : Step) (s : State) : State :=
  let s := changeCfg (fun s => s.setReg (0x20 + n.val) 0x08
    (setFld (setFld (s.cfg n.val) 0 2 st.profile) 4 2 st.range)) s
  forChans (s.gangOf n) noteFsw (touchReg (0x20 + n.val) 0x08 s)

/-- CAPT_CFG.DEC, 0 taken as 1 (R199). -/
def State.captDec (s : State) (n : Chan) : Nat := max 1 (fld (s.chReg n.val 0x76) 0 16)

/-- The capture, DCIR or EIS use a step starts (R199, R201, R204); a LEAF visit to the channel or its gang leaves
(R133). Its perturbation and capture begin at once, on the stand-in's samples, though up to 3 ms later are allowed (log entry
95). -/
def startUses (n : Chan) (st : Step) (s : State) : State :=
  let uses := decide (st.typ = 7 ∨ st.typ = 8) || st.capt
  let s := if uses && (match s.visited with
      | some v => decide (v ∈ s.gangOf n)
      | none => false) then leafLeave true s else s
  if st.typ = 7 then
    let s := startUse n 2 st.entry 0 s
    let s := if s.capEn then putSlot n 6 (s.chReg n.val 0x60) s else s
    s.modCell n fun c => { c with dcir := { c.dcir with
      phase := 1, edge := 0, bins := 0, done1 := false, done2 := false, spoiled := false, anyValid := false, tail := none } }
  else if st.typ = 8 then
    let s := startUse n 3 st.entry (put st.descEntry.val 0) s
    (discardPoint n s).modCell n fun c => { c with eis := { c.eis with
      running := true, k := 0, rerun := none, again := [], met := [], clip := false, spoiled := false, thr := false
      points := [] } }
  else if st.capt then
    let s := { s with cap := { s.cap with armed := s.cap.armed ||| bitW n.val } }
    let s := s.modCell n fun c => { c with pair := ⟨0, 0, 0, 0⟩ }
    startUse n 1 st.entry (put (s.captDec n) 0) s
  else s

/-- CAPZ: the capacity of the channel and its gang restarts at the load (R179), of a control step too (R144). -/
def clearCapacity (n : Chan) (st : Step) (s : State) : State :=
  if st.capZ then forChans (s.gangOf n) (fun k s => s.modCell k fun c => { c with tot := { c.tot with cap := 0 } }) s
  else s

/-- The shadow takes a running step, and what each load restarts (R141, R148, R168, R179, R183). FC reaches the channel that
loads the step: the other members of its gang keep their codes, for which the manual gives no rule (log entry 79). -/
def takeStep (n : Chan) (st : Step) (s : State) : State :=
  let lvl := s.sourceLevel st
  let s := if st.cont then s else forChans (s.gangOf n) (fun k s => s.modCell k fun c =>
    { c with tot := { c.tot with stepQ := 0, stepE := 0 } }) s
  let s := s.modCell n fun c =>
    let q := c.seq
    { c with
        seq := { q with
          pc := st.entry, step := some st, next := .none, phase := .active, terms := Vector.replicate 4 ⟨0, none⟩
          loadT := 0, frames := 0, vHist := [], iHist := [], cvph := false, levelB := false
          levelT := 0, done := false, waitLast := lvl, waitHit := false
          peak := if st.keepPk then q.peak else none
          stepT := if st.cont then q.stepT else 0
          minV := if st.cont then q.minV else none
          maxT := if st.cont then q.maxT else none }
        meas := { c.meas with fc := BitVec.ofNat 4 st.fc
                              fv := { c.meas.fv with on := c.meas.fv.on && decide (st.fc < 10) }
                              fi := { c.meas.fi with on := c.meas.fi.on && decide (st.fc < 10) }
                              fo := { c.meas.fo with on := c.meas.fo.on && decide (st.fc < 10) } } }
  let s := { s with log := { s.log with shadow := s.log.shadow.set n.val none } }
  clearCapacity n st s

/-- A running step loads: its request, or its setpoint at once (R168, R169). A transition that START, RESUME or a stale hold left
open replaces no running step (R218). -/
def startStep (n : Chan) (st : Step) (s : State) : State :=
  let replaces := decide ((s.cell n).seq.next = .none)
  let s := startUses n st (takeStep n st (loadCfg n st s))
  if st.requests then
    let (now, s) := sendRequest n st replaces s
    if now then beginSetpoint n st s else waitQueued n s
  else applySetpoint n st s

/-! ### Control steps and actions (R153 to R157) -/

/-- The recipe ends: STATE = DONE, the current ramps to 0. -/
def endRecipe (n : Chan) (s : State) : State :=
  let s := (rampToZero n s).modSeq n fun q => { q with next := .none, phase := .off }
  setState n .done s

/-- What an ACTION of a word of entry e leads to: the entry that runs next, or the end of the transition. -/
def actionOf (n : Chan) (w : Word) (e : Fin 1024) (s : State) : Sum (Fin 1024) State :=
  match tAct w with
  | 0 => .inl (e + 1)
  | 1 => .inl (tTarget w)
  | 2 => .inr (endRecipe n s)
  | 3 => .inr (setState n .hold ((suspend n s).modSeq n fun q => { q with next := .follow (e + 1) }))
  | 4 => .inr (safeWith none true true n s)
  | _ => .inr (safeWith none false true n s)

/-- LOOP: the loop counters and the next entry (R155). -/
def loopStep (n : Chan) (st : Step) (s : State) : Fin 1024 × State :=
  let k : Fin 4 := Fin.ofNat 4 (fld st.w[1] 0 2)
  let set (v : Word) (s : State) := s.modSeq n fun q => { q with loops := q.loops.set k.val v }
  if fld st.w[1] 4 2 = 0 then (st.entry + 1, set st.w[2] s)
  else
    let v := (s.cell n).seq.loops[k.val]
    if v = 0 then (st.entry + 1, s)
    else (if v - 1 = 0 then st.entry + 1 else Fin.ofNat 1024 (fld st.w[3] 0 10), set (v - 1) s)

/-- MARK: a marker record with w1 and the capacity (R157, R191). -/
def markStep (n : Chan) (st : Step) (s : State) : State :=
  let c := s.cell n
  let (v, i, t) := c.seq.jumpF
  raiseBit (chB (dr n)) 5
    (pushRecord { ch := n, entry := st.entry, reason := 11, ms := 0, maxT := t, endI := i, endV := v
                  minV := v, q := accInt c.tot.cap, e := st.w[1].toNat } s)

/-- One control step: the entry that follows, or the end of the transition. -/
def controlStep (n : Chan) (cur prev : List (Option Int)) (st : Step) (s : State) : Sum (Fin 1024) State × State :=
  let s := clearCapacity n st s
  if st.typ = 10 then
    let (e, s) := loopStep n st s
    (.inl e, s)
  else if st.typ = 11 then
    match (List.finRange 4).find? (jumpHolds st cur prev) with
    | some j => (actionOf n st.w[4 + j.val] st.entry s, s)
    | none => (.inl (st.entry + 1), s)
  else if st.typ = 13 then (.inl (st.entry + 1), markStep n st s)
  else (.inr (endRecipe n s), s)

/-- SAFE meets a transition of channel n at the frame end: it is abandoned without a load (R163). -/
def meetSafe (n : Chan) (s : State) : State := safeWith (some 4) false true n s

/-- A transition from entry e: control steps, at most `fuel` in a row, then the next running step (R154, R167). `stop`: a SAFE
command meets it once that many control steps have executed. A control step too many that fails another check of its load
reports that one (log entry 97). -/
def transit (n : Chan) (cur prev : List (Option Int)) : Option Nat → Nat → Fin 1024 → State → State
  | some 0, _, _, s => meetSafe n s
  | stop, 0, e, s => checkLoad n e s fun st s =>
      if st.control then loadFail n 9 e s else if stop.isSome then meetSafe n s else startStep n st s
  | stop, fuel + 1, e, s => checkLoad n e s fun st s =>
      if st.control then
        match controlStep n cur prev st s with
        | (.inl e', s) => transit n cur prev (stop.map (· - 1)) fuel e' s
        | (.inr t, _) => if stop.isSome then meetSafe n t else t
      else if stop.isSome then meetSafe n s else startStep n st s

/-- A step ended at the end of a frame by word j (R153). -/
def fire (n : Chan) (stop : Option Nat) (cur prev : List (Option Int)) (st : Step) (j : Fin 4) (s : State) : State :=
  let s := endStep n 1 j.val true s
  match actionOf n st.w[4 + j.val] st.entry s with
  | .inl e => transit n cur prev stop 16 e s
  | .inr t => if stop.isSome then meetSafe n t else t

/-- A step ended by itself at the end of a frame: COMPLETE, then NEXT (R153). -/
def complete (n : Chan) (stop : Option Nat) (cur prev : List (Option Int)) (st : Step) (s : State) : State :=
  transit n cur prev stop 16 (st.entry + 1) (endStep n 2 (s.cell n).seq.tw.toNat true s)

/-- STEPTIME: the running step has exceeded RLIM_TIME (R166, R171). `boundary` as for `endStep`. -/
def stepTimeout (n : Chan) (boundary : Bool) (s : State) : State :=
  match s.step n with
  | none => s
  | some st =>
    let s := endStep n 6 (s.cell n).seq.tw.toNat boundary s
    recipeError n st.entry (safeWith none true boundary n s)

/-- The time since the load exceeds RLIM_TIME (R171). -/
def State.overTime (s : State) (n : Chan) : Bool :=
  let r := (s.chReg n.val 0x2C).toNat
  decide (r ≠ 0) && decide (1000 * r < (s.cell n).seq.loadT)

/-- STEPTIME as an event of its own. -/
def opSteptime (n : Chan) (s : State) : State :=
  if decide ((s.cell n).seq.state = .run) && !s.member n && s.overTime n then stepTimeout n false s else s

end Sys2Proof.Machine
end

