-- ==== Sys2Proof/Machine/StageOps.lean ====
section
/-! DEFINITION. Events of the power stage: comparators and their trips, ramps, range switches, dead time, burst, fold,
and the PULSE and CCCV events of a running step (03_power_stage.md, R72 to R101; R111, R145). -/

namespace Sys2Proof.Machine

/-- Comparator code of R97. -/
def tripCode : Trip → Nat
  | .vmax => 1
  | .vmin => 2
  | .ichg => 3
  | .idis => 4
  | .tmax => 5
  | .tmin => 6
  | .q => 7
  | .sense => 8
  | .peakFault => 9
  | .swnode => 10
  | .bootFault => 11
  | .rampAbort => 12

/-- The PS_EVT bit of a comparator (R93). -/
def tripEvt : Trip → Nat
  | .vmax => 0
  | .vmin => 1
  | .ichg => 2
  | .idis => 3
  | .tmax => 4
  | .tmin => 5
  | .q => 6
  | .sense => 7
  | .peakFault => 9
  | .swnode => 10
  | .bootFault => 12
  | .rampAbort => 13

/-- The order in which ERR_CAP.DETAIL takes a comparator (R96). -/
def tripRank : Trip → Nat
  | .swnode => 0
  | .bootFault => 1
  | .peakFault => 2
  | .rampAbort => 3
  | .vmax => 4
  | .vmin => 5
  | .ichg => 6
  | .idis => 7
  | .sense => 8
  | .q => 9
  | .tmax => 10
  | .tmin => 11

/-- A comparator whose local reaction is a hard stop with FAULT. -/
def tripFaults : Trip → Bool
  | .peakFault => true
  | .swnode => true
  | .bootFault => true
  | _ => false

/-- A temperature comparator's values have been beyond its limit QUAL_T times in a row, the limits of the leader (R88, R93), and
its QUAL_T, which R88 does not name (log entry 92). -/
def State.tempTrips (s : State) (n : Chan) (k : Nat) : Bool :=
  decide (max 1 (fld (s.chReg (s.leader n).val 0x2A) 16 4) ≤ k)

/-- The force-to-sense voltage of the last frame exceeds VSENSE_MAX of the leader (R88, R93). -/
def State.senseLost (s : State) (n : Chan) : Bool :=
  decide ((s.chReg (s.leader n).val 0x29).toInt < (s.cell n).meas.vdrop.toInt.natAbs)

/-- The comparator is armed on channel n (R93), and acts: none in DOZE and SLEEP (R363), the voltage and current limits in frames
that convert (R362). Where the state holds what it compares, its condition holds. -/
def State.tripArmed (s : State) (n : Chan) (t : Trip) : Bool :=
  let live := (s.cell n).seq.state.live
  s.coreOn && (match t with
    | .peakFault => (s.cell n).ps.switching
    | .swnode => (s.cell n).ps.switching
    | .bootFault => (s.cell n).ps.switching
    | .rampAbort => (s.cell n).ps.ramp
    | .tmax => live && s.tempTrips n (s.cell n).meas.hot
    | .tmin => live && s.tempTrips n (s.cell n).meas.cold
    | .sense => live && s.senseLost n && s.converts n
    | .q => live
    | _ => live && s.converts n)

/-- The error line of a comparator of channel n (R93). -/
def tripLine (n : Chan) (t : Trip) : Line :=
  if tripFaults t then (if n.val < 16 then lDriveA else lDriveB) else lChprot

/-- ERR_CAP.DETAIL of a power stage trip with a comparator code (R97). The frame in which the trip occurs is the one
that FRAME counts at its end. The direction is that of the current reference: the manual names no quantity (log entry
83). -/
def State.tripFields (s : State) (n : Chan) (code : Nat) : Nat :=
  code * 2 ^ 19 + s.range n * 2 ^ 17 + (if 0 < (s.cell n).ps.iref then 2 ^ 16 else 0) + (s.frame + 1).toNat % 2 ^ 16

def State.tripDetail (s : State) (n : Chan) (t : Trip) : BitVec 23 := BitVec.ofNat 23 (s.tripFields n (tripCode t))

/-- The comparator among some that ERR_CAP.DETAIL takes. -/
def firstTrip : List Trip → Option Trip
  | [] => none
  | t :: rest => match firstTrip rest with
    | none => some t
    | some u => if tripRank t ≤ tripRank u then some t else some u

/-- A ramp deviation: the hard stop ends the ramp; a ramp that ends in FAULT does so (R99, R160, R166). -/
def abortRamp (n : Chan) (s : State) : State := hardStop n (endRamp n s)

/-- The comparators of channel n that trip in one modulator cycle: events, the widest local reaction, and ERR_CAP with the detail
`d` of the first by rank (R93 to R97). -/
def tripLocal (n : Chan) (ts : List Trip) (d : BitVec 23) (s : State) : State :=
  let s := psEvt n (ts.foldl (fun w t => w ||| bitW (tripEvt t)) 0) s
  let s := if ts.any tripFaults then faultStop n s
    else if ts.any fun t => decide (t = .rampAbort) then abortRamp n s
    else enterSafe n s
  capErr (chB (dr n)) d s

/-- The comparators of channel n among some that trip. -/
def tripsOf (n : Chan) (l : List (Chan × Trip)) : List Trip := (l.filter fun x => decide (x.1 = n)).map (·.2)

/-- The comparators, of one or several channels, that trip in one modulator cycle: the local reactions, channel by channel, and
one report for each in one list (R95, R96, R310). -/
def trips (l : List (Chan × Trip)) (s : State) : State :=
  let l := l.filter fun x => s.tripArmed x.1 x.2
  if l = [] then s else
  let t := forChans allChans (fun n u => match firstTrip (tripsOf n l) with
    | none => u
    | some t => tripLocal n (tripsOf n l) (s.tripDetail n t) u) s
  reports (allChans.flatMap fun n => (tripsOf n l).map fun t =>
    ⟨tripLine n t, .contained, some n, .none, .none, .background, false, tripCode t, 0⟩) t

/-- The half-bridge of channel n switches, in a domain that works (R20, R358). -/
def State.drives (s : State) (n : Chan) : Bool :=
  (s.cell n).ps.switching && s.driveOn n && s.coreOn

/-- The peak comparator, which compares the inductor current itself (R92), ends an on-time (R93, PK_CNT). -/
def opPeak (n : Chan) (s : State) : State :=
  if !s.drives n then s
  else psEvt n (bitW 8) (s.modPs n fun p => { p with pkCnt := satW p.pkCnt })

/-- A high-side pulse is skipped (R82). -/
def opBootUv (n : Chan) (s : State) : State := if !s.drives n then s else psEvt n (bitW 11) s

/-- The dead time before one turn-on stays at DTMAX (R84). -/
def opDtlim (n : Chan) (high : Bool) (s : State) : State :=
  if !s.drives n || s.dtFixed n then s
  else psEvt n (bitW 14) (s.modPs n fun p => { p with dtAct := setFld p.dtAct (if high then 16 else 0) 6 (s.dtMax n) })

/-- Both dead times follow DTFIX while TUNE_CTRL.DT_FIXED = 1 and the half-bridge switches; else DT_ACT keeps its last value, for
which the manual gives no rule (log entry 95). -/
def followDt (n : Chan) (s : State) : State :=
  if (s.cell n).ps.switching && s.dtFixed n then s.modPs n fun p => { p with dtAct := s.startDt n } else s

/-- The trickle stage, in a domain that works, starts or ends its fold-back (R20, R72). -/
def opFold (n : Chan) (on : Bool) (s : State) : State :=
  if !(s.cell n).ps.trickleOn || !s.driveOn n || !s.coreOn then s
  else
    let s := s.modPs n fun p => { p with fold := on }
    if on then psEvt n (bitW 17) s else s

/-- The step of channel n is evaluated each frame. -/
def State.activeStep (s : State) (n : Chan) : Option Step :=
  if (s.cell n).seq.phase = .active then s.step n else none

/-- The outer loop of a running step asks for a current i, µA, which the step's limit bounds. The loop of a discharging step
that the broker trims holds, that of a CCCV step in its CV phase too, which R230 does not name (log entry 97), and a path that
starts, switches its range or ramps follows none (R73, R98, R145, R230). -/
def followLoop (n : Chan) (i : Int) (s : State) : State :=
  let p := (s.cell n).ps
  match s.activeStep n with
  | none => s
  | some st =>
    if !p.conducts || p.rsw || p.ramp || p.toZero then s
    else if (s.vSet n st).isSome then
      (if s.loopHeld n then s else setReference n st (clampI (-st.bound) st.bound i) s)
    else s

/-- The reference crosses BIN or BOUT at i; burst operation follows it in FRUGAL (R85). -/
def opBurst (n : Chan) (i : Int) (s : State) : State :=
  if !s.drives n then s
  else
    let z := s.clampHard n i
    let s := if s.member n then s else followLoop n i s
    let c := s.chReg n.val 0x46
    let bin := fld c 0 16
    let bout := if fld c 16 16 ≤ bin then bin + 250 else fld c 16 16
    let ok := s.burstOk n
    s.modPs n fun p => { p with burst :=
      ok && (if z.natAbs < 1000 * bin then true else if 1000 * bout < z.natAbs then false else p.burst) }

/-- HIGH and MID conversions have differed for 10 frames (R111), in a domain that works (R358). The count starts again with the
report (log entry 87). -/
def opMismatch (n : Chan) (s : State) : State :=
  if !s.measOn n || decide ((s.cell n).meas.differ < 10) then s
  else
    report (if n.val < 16 then lMeasA else lMeasB) .contained (some n) .none 0
      (capErrFree (chB (dr n)) (s.modCell n fun c => { c with meas := { c.meas with differ := 0 } }))

/-- VMAX, VMIN, ICHG_MAX or IDIS_MAX of channel n has been written: the demands in force are clamped again (R81); a loop
that R230 holds stays where it is. -/
def reclamp (n : Chan) (s : State) : State :=
  let l := s.leader n
  let p := (s.cell l).ps
  if !p.conducts || p.rsw || p.ramp || p.toZero then s
  else match s.activeStep l with
    | none => s
    | some st => setReference l st
      (if s.loopHeld l && decide (st.typ = 4 ∨ st.typ = 5) then p.want else (s.ownRef l st).getD p.want) s

/-! ### Samples inside a frame (R105, R106) -/

/-- The trickle stage drives FPn from t_a on (R75). -/
def Stage.reach (k : Nat) (p : Stage) : Stage :=
  match p.enable with
  | some a => if a ≤ k then { p with was := p.was ++ [(a, p.src, false)], trickleOn := true, enable := none } else p
  | none => p

/-- Samples of channel n that a command brings; chains that do not convert take none (R20, R102, R362). -/
def bringCh (n : Chan) (xs : List RawSample) (s : State) : State :=
  if !s.converts n then s
  else
    let s := s.modCell n fun c => { c with meas := { c.meas with got := (c.meas.got ++ xs).take 50 } }
    forChans (s.gangOf n) (fun k s => s.modPs k (Stage.reach (s.cell n).meas.got.length)) s

/-- The samples an event inside a frame brings. -/
def bring (x : Fresh) (s : State) : State :=
  let s := x.chans.foldl (fun s c => bringCh c.1 c.2 s) s
  if s.works dMeasA && s.napConverts then { s with leaf := { s.leaf with got := (s.leaf.got ++ x.leaf).take 50 } } else s

/-- Samples of channel n in the present frame so far. -/
def State.gotN (s : State) (n : Chan) : Nat := (s.cell n).meas.got.length

/-! ### PULSE, CCCV and the ends of ramps and switches -/

/-- The time of a PULSE step at its present level, in samples: units of 0.1 ms, at least 2 (R145). -/
def Step.levelTime (st : Step) (b : Bool) : Nat := 5 * max 2 (fld st.w[3] (if b then 0 else 16) 16)

/-- PULSE has been at its present level for the programmed time: it changes (R145). -/
def opPulse (n : Chan) (x : Fresh) (s : State) : State :=
  let s := bring x s
  match s.activeStep n with
  | none => s
  | some st =>
    let q := (s.cell n).seq
    if st.typ ≠ 6 ∨ (s.cell n).ps.rsw ∨ q.levelT + (s.gotN n : Int) < (st.levelTime q.levelB : Int) then s
    else applyReference n st (s.modSeq n fun q => { q with levelB := !q.levelB })

/-- CCCV reaches its CV phase (R145). -/
def opCvPhase (n : Chan) (s : State) : State :=
  match s.activeStep n with
  | none => s
  | some st => if st.typ ≠ 3 then s else applyReference n st (s.modSeq n fun q => { q with cvph := true })

/-- The paths of the gang of n that ramp to 0 have stopped (R164). -/
def opZeroEnd (n : Chan) (s : State) : State :=
  forChans (s.gangOf n) (fun k s => if (s.cell k).ps.toZero then stopPaths k s else s) s

/-- A range switch completes on one channel: its samples so far came over the old paths (R74 to R76, R106). -/
def switchDone (r k : Nat) (p : Stage) : Stage :=
  if !p.rsw then p
  else
    let p := p.markPath k
    if r = 2 then
      { p with
          rsw := false, trickleOn := p.trickleOn || p.enable.isSome, enable := none, switching := false
          burst := false, src := 2 }
    else { p with rsw := false, trickleOn := false, fold := false, enable := none, src := BitVec.ofNat 2 r }

/-- A range switch completes: the step's setpoint applies (R73). One that PAUSE or STOP abandoned does not (R164). -/
def opSwitchDone (n : Chan) (x : Fresh) (s : State) : State :=
  let s := bring x s
  let p := (s.cell n).ps
  if !p.rsw || p.toZero then s
  else
    let l := s.leader n
    let at_ := s.gotN l
    let s := forChans (s.gangOf n) (fun k s => s.modPs k (switchDone (s.range n) at_)) s
    match s.activeStep l with
    | some st => estApplies 2 l (applyReference l st s)
    | none => s

end Sys2Proof.Machine
end

