-- ==== Sys2Proof/Machine/FaultOps.lean ====
section
/-! DEFINITION. Locks, and what ends a reaction, a shadow or a counting window; FAIL_STOP entry and exit
(02_pages_and_drawers.md, R45 to R49; 10_fault_collection.md, R306 to R325). -/

namespace Sys2Proof.Machine

/-! ### LOCK -/

/-- A write to LOCK of block b by master m (R45 to R48). A key with a wrong KPAGE counts in BADKEY whoever writes it, also
while another master holds the lock: R47 says both (log entry 79). -/
def lockWrite (b : Fin 53) (m : Master) (v : Word) (s : State) : State :=
  let key := fld v 16 16
  let mine := decide (fld v 8 8 = blkPage b)
  let s := if bit v 1 then s.modCom b fun c => { c with lkDrop := false } else s
  let c := s.com[b.val]
  if key = 0 then s
  else if (key ≠ 0x4F50 ∧ key ≠ 0x434C) ∨ ¬ mine then
    s.modCom b fun c => { c with badKey := if c.badKey = 15 then 15 else c.badKey + 1 }
  else if key = 0x4F50 then
    if c.lockOpen ∨ masterOwner m = 0 then s
    else s.modCom b fun c => { c with lockOpen := true, owner := masterOwner m, badKey := 0 }
  else if c.openFor m then closeLock b s
  else s

/-- The lock closes by itself (R49). -/
def opLockAutoClose (b : Fin 53) (s : State) : State := if s.com[b.val].lockOpen then closeLock b s else s

/-! ### Reports from outside the model's own detectors -/

/-- The block whose ERR_CAP takes the details of a report: the drawer for the channel units, the chains and a recipe
failure, the block's own page else; the collector's page keeps none for a channel line (R97, R177, R298). -/
def reportBlk (r : Report) : Option (Fin 53) :=
  match r.line.val, r.chan with
  | 7, some n | 12, some n | 13, some n | 14, some n | 15, some n | 16, some n => some (chB (dr n))
  | 12, none | 13, none | 14, none | 15, none | 16, none => none
  | _, _ => some (lineBlk r.line)

/-- The MEM code of a bank in ERR_CAP.DETAIL. -/
def memCode : Bank → Nat
  | .r => 1
  | .l => 2
  | _ => 4

/-- DETAIL of a report as its block's chapter gives it, and the bits of it that neither the chapter nor an operand gives: none,
or all of it where a chapter gives no layout. -/
def State.reportFields (s : State) (r : Report) : Nat × BitVec 23 :=
  match r.line.val, r.chan, r.loc with
  | 14, some n, _ | 15, some n, _ | 16, some n, _ => (s.tripFields n r.det, 0)
  | 7, some _, _ => (13 * 2 ^ 19 + r.det % 1024 * 2 ^ 9 + s.frameBits 9, 0)
  | 4, _, _ => (r.det * 2 ^ 17 + s.frameBits 16, 0)
  | 5, _, _ => (r.det * 2 ^ 19 + s.frameBits 16, 0)
  | 6, _, _ => (4 * 2 ^ 19 + s.frameBits 16, 0)
  | 11, c, _ => (r.det * 2 ^ 20 + (c.map (·.val)).getD s.leaf.ch.toNat * 2 ^ 14 + s.frameBits 14, 0)
  | 17, _, .bank b a | 18, _, .bank b a | 19, _, .bank b a => (memCode b * 2 ^ 20 + a % 2 ^ 20, 0)
  | 0, _, _ | 1, _, _ =>
    if 17 ≤ r.det then (r.det * 2 ^ 18, 0)
    else if 1 ≤ r.det then (r.det * 2 ^ 18 + r.more % 8 * 2 ^ 15 + s.link.reqCnt.toNat, 0)
    else (0, 0x7FFFFF)
  | 2, _, _ => if 1 ≤ r.det then (r.det * 2 ^ 19 + r.more % 2 ^ 16, 0) else (0, 0x7FFFFF)
  | 3, _, _ => if 1 ≤ r.det then (r.det * 2 ^ 19 + r.more % 256 * 2 ^ 8 + s.frameBits 8, 0) else (0, 0x7FFFFF)
  | _, _, _ => (0, 0x7FFFFF)

/-- ERR_CAP of the block of a report takes its DETAIL (R298, R41); what no chapter or operand gives is free (log entry
3). -/
def reportDetail (r : Report) (s : State) : State :=
  match reportBlk r, s.reportFields r with
  | none, _ => s
  | some b, (d, m) =>
    if m = 0 then capErr b (BitVec.ofNat 23 d) s
    else
      let (w, s) := freeWord s
      capErr b (BitVec.ofNat 23 d ||| (w.setWidth 23 &&& m)) s

/-- The reports of one cycle (R300). -/
def opReports (rs : List Report) (s : State) : State := reports rs (rs.foldl (fun s r => reportDetail r s) s)

/-! ### Ends -/

/-- The slot of a reaction. -/
def State.rx (s : State) (nested : Bool) : Option Reaction := if nested then s.fcol.rxB else s.fcol.rxA

def setRx (nested : Bool) (x : Option Reaction) (s : State) : State :=
  { s with fcol := if nested then { s.fcol with rxB := x } else { s.fcol with rxA := x } }

/-- No channel of a list ramps. -/
def State.rampsOver (s : State) (l : List Chan) : Bool := l.all fun n => !(s.cell n).ps.ramp

/-- One part of a reaction has ended (R313): the ramps of the affected channels, or the core's restart; `timeout`: the
200 µs of a SAFE ramp have passed. The reset of another block ends with the event. -/
def RxPart.ended (s : State) (timeout : Bool) (p : RxPart) : Bool :=
  match p.code with
  | 2 => timeout || s.rampsOver (chansOf p.chans)
  | 4 => timeout || s.rampsOver allChans
  | 3 => match p.line.val with
    | 14 | 15 => timeout || s.rampsOver (chansOf p.chans)
    | 19 | 28 | 29 => !s.hk.restarting
    | _ => true
  | _ => true

/-- The end of this part is an event of its own in the state: ramps or the core's restart. -/
def RxPart.watched (p : RxPart) : Bool :=
  decide (p.code = 2 ∨ p.code = 4)
    || (decide (p.code = 3) && decide (p.line = lDriveA ∨ p.line = lDriveB ∨ p.line = lSramH ∨ p.line = lHkcore ∨ p.line = lWatchdog))

/-- A reaction ends and its settle time starts, once its longest part has ended (R310, R313, R319); not while the collector
stands (R20). -/
def opReactionEnd (nested timeout : Bool) (s : State) : State :=
  match s.rx nested with
  | none => s
  | some x =>
    if s.asleep || x.settle || !x.parts.all (RxPart.ended s timeout) then s
    else setRx nested (some { x with settle := true }) (x.finish s)

/-- A reaction whose parts all end with ramps or the core's restart ends with the last of them (R313). -/
def settleReaction (nested : Bool) (s : State) : State :=
  match s.rx nested with
  | none => s
  | some x => if x.parts.all RxPart.watched then opReactionEnd nested false s else s

def settleReactions (s : State) : State := settleReaction true (settleReaction false s)

/-- The detector's condition, as its page shows it in LIVE (R321); none: a comparator of a power stage, whose input no
register holds. The failed visits that a channel reports on MEASA or MEASB show in LEAF.LIVE.VFAIL (R127, R128, R138). A detector
of single events has no condition. -/
def State.detects (s : State) (r : Report) : Option Bool :=
  let live (b : Fin 53) := decide (1 ≤ r.det) && bit (s.live b) (r.det - 1)
  match r.line.val with
  | 14 | 15 | 16 => none
  | 0 => some (live bLink)
  | 2 => some (live bMgmt)
  | 3 => some (live bFix)
  | 4 => some (live bIo24)
  | 5 => some (match r.det with
    | 1 => s.bench.bov
    | 2 => s.bench.buv
    | 3 => bit (s.live bBench) 9
    | _ => false)
  | 12 | 13 => some (decide (r.det = 1 ∨ r.det = 2) && bit (s.live bLeaf) 2)
  | 11 => some (match r.det with
    | 1 | 2 => bit (s.live bLeaf) 2
    | 3 => bit (s.live bLeaf) 5
    | 4 => bit (s.live bLeaf) 4
    | 5 => bit (s.live bLeaf) 6
    | _ => false)
  | 24 | 25 | 30 => some (live bClk)
  | 26 => some (decide (r.det = 10) && s.sup.vddpUv
      || decide (1 ≤ r.det) && decide (r.det ≤ 8) && s.pwr.failed.getLsbD (r.det - 1))
  | 27 => some s.hk.hot
  | 31 => some (live bSec)
  | _ => some false

/-- The report a detector sends when a shadow ends: of the class of its last shadowed report, made by no access (R321). -/
def sentAgain (r : Report) : Report := { r with loc := .none, master := .none, acc := .background, inj := false }

/-- A shadow ends: each detector with a shadowed report whose condition is present sends one report (R321); `present`: the
comparators of power stages whose inputs are beyond their thresholds, as line, channel and code. A nested reaction moves
into the A fields. -/
def opShadowEnd (nested : Bool) (present : List (Line × Option Chan × Nat)) (s : State) : State :=
  match s.rx nested with
  | none => s
  | some x =>
    if s.asleep || !x.settle then s
    else
      let s := setRx nested none s
      let s : State := if s.fcol.rxA = none then { s with fcol := { s.fcol with rxA := s.fcol.rxB, rxB := none } } else s
      opReports ((x.shadowed.filter fun r => (s.detects r).getD (decide ((r.line, r.chan, r.det) ∈ present))).map sentAgain) s

/-- A counted report leaves its window; the lasting marks clear at 0 (R306, R308). In DOZE and SLEEP the collector stands
(R20). -/
def opWindowExpire (b : Fin 53) (s : State) : State :=
  if s.asleep then s else s.modCom b fun c =>
    if c.count ≤ 1 then { c with count := 0, lastLines := 0, lastChan := false } else { c with count := c.count - 1 }

/-! ### FAIL_STOP -/

/-- No line is lasting. -/
def State.noneLasting (s : State) : Bool := (List.finRange 53).all fun b => decide (s.com[b.val].lastLines = 0)

/-- An effective write of FCOL.CTRL: FSNOW, else FSEXIT under its conditions (R314, R316). -/
def fcolCtrl (v : Word) (s : State) : State :=
  if bit v 0 then failStop 3 0 s
  else if bit v 1 && s.fcol.failStop && decide (s.fcol.fsCause ≠ 2) && decide (s.fcol.clsFat = 0) && s.noneLasting then
    { s with fcol := { s.fcol with failStop := false } }
  else s

/-- A self-check of the collector fails: FAIL_STOP with cause 2 (R324). -/
def opSelfCheck (code : Fin 3) (s : State) : State :=
  if !s.coreOn then s else
  let s := capErr bFcol (BitVec.ofNat 23 ((code.val + 1) * 2 ^ 20)) s
  let s := failStop 2 0 s
  { s with fcol := { s.fcol with fsCause := 2 } }

/-- An effective write of FCOL.INJECT (R325). CLASS 3 discards it. -/
def inject (v : Word) (s : State) : State :=
  if !bit v 31 then s
  else
    let ch : Option Chan := if bit v 23 then some (Fin.ofNat 32 (fld v 18 5)) else none
    let go (c : FClass) := reports [⟨Fin.ofNat 32 (fld v 24 5), c, ch, .none, .none, .background, true, 0, 0⟩] s
    match fld v 29 2 with
    | 0 => go .corrected
    | 1 => go .contained
    | 2 => go .fatal
    | _ => s

/-- A capture re-armed by a write of 1 to INFO.VALID (R303). -/
def rearmCapture (c : FClass) (v : Word) (s : State) : State :=
  if !bit v 31 then s
  else
    let clr (x : Capture) : Capture := { x with info := x.info &&& 0x3FFFFFFF#32 }
    { s with fcol := match c with
      | .corrected => { s.fcol with cor := clr s.fcol.cor }
      | .contained => { s.fcol with con := clr s.fcol.con }
      | .fatal => { s.fcol with fat := clr s.fcol.fat } }

/-- ERR_CAP re-armed by a write of 1 to VALID (R41). -/
def rearmErr (b : Fin 53) (v : Word) (s : State) : State :=
  if !bit v 23 then s else s.modCom b fun c => { c with capValid := false, lostClr := 0 }

/-- ALIVE and ALIVEF toggle (R317). -/
def opAlive (s : State) : State :=
  if s.ready && !s.fcol.failStop then { s with fcol := { s.fcol with alive := !s.fcol.alive } } else s

end Sys2Proof.Machine
end

