-- ==== Sys2Proof/Machine/CheckOps.lean ====
section
/-! DEFINITION. The march engine and the check units (11_memories_and_checks.md, R339 to R351). -/

namespace Sys2Proof.Machine

/-! ### March engine -/

/-- Groups of a bank in a preserving pass (R339). -/
def marchGroups (b : Nat) : Nat :=
  match b with
  | 0 => 128
  | 1 => 1024
  | 2 => 512
  | _ => 440

def marchBank (b : Nat) : Bank :=
  match b with
  | 0 => .r
  | 1 => .l
  | 2 => .c
  | _ => .h

/-- Byte address of a group; BANK-H skips the response buffer and staging. -/
def marchAddr (b g : Nat) : Nat := if b = 3 ∧ 384 ≤ g then 0x1C800 + (g - 384) * 256 else g * 256

/-- The first group of the first selected bank from bank b on. -/
def State.marchFrom (s : State) (b : Nat) : Option (BitVec 2 × BitVec 11) :=
  ((List.range 4).find? fun k => decide (b ≤ k) && bit (s.reg 0x09 0x01) (8 + k)).map fun k => (BitVec.ofNat 2 k, 0)

/-- The group after (b, g) in ascending order. -/
def State.marchAfter (s : State) (b : BitVec 2) (g : BitVec 11) : Option (BitVec 2 × BitVec 11) :=
  if g.toNat + 1 < marchGroups b.toNat then some (b, g + 1) else s.marchFrom (b.toNat + 1)

/-- A pass ends at its end: MPASS, DONE (R344). -/
def passDone (s : State) : State :=
  raiseBit bMem 0 { s with memc := { s.memc with running := false, mpass := s.memc.mpass + 1 } }

/-- A pass starts at its first group. -/
def passBegin (s : State) : State :=
  match s.marchFrom 0 with
  | none => passDone s
  | some (b, g) => { s with memc := { s.memc with
      running := true, bank := b, group := g, stop := false, inRow := 0, again := [], seqNext := s.marchAfter b g } }

/-- MCMD.GO (R339). -/
def marchGo (s : State) : State :=
  if s.memc.running then s else passBegin { s with memc := { s.memc with mfail := 0 } }

/-- MCMD.STOP: the pass ends after the group in progress (R344). -/
def marchStop (s : State) : State :=
  if s.memc.running then { s with memc := { s.memc with stop := true } } else s

/-- The group that follows: one to repeat that waited before this group, then the next in order, then one this group
asks to repeat; else the pass ends. -/
def marchNext (repeats : Option Nat) (s : State) : State :=
  let m := s.memc
  let cur := (m.bank, m.group)
  let later := match repeats with
    | some k => [(cur, k)]
    | none => []
  if m.stop then { s with memc := { m with running := false, stop := false } }
  else match m.again, m.seqNext, later with
    | (g, k) :: rest, _, _ => { s with memc := { m with bank := g.1, group := g.2, inRow := k, again := rest ++ later } }
    | [], some g, _ =>
      { s with memc := { m with bank := g.1, group := g.2, inRow := 0, again := later, seqNext := s.marchAfter g.1 g.2 } }
    | [], none, (g, k) :: _ => { s with memc := { m with bank := g.1, group := g.2, inRow := k } }
    | [], none, [] =>
      let s := passDone s
      if bit (s.reg 0x09 0x01) 0 ∧ (s.marchFrom 0).isSome then passBegin s else s

/-- MFAIL takes the first failure since GO (R343). -/
def marchFail (b a : Nat) (s : State) : State :=
  let s : State := if bit s.memc.mfail 31 then s else
    { s with memc := { s.memc with mfail := 0x80000000 ||| put b 27 ||| put a 0 } }
  bankReport (s.bankLine (marchBank b) a) .contained (marchBank b) a .march .read (memErr 5 a (raiseBit bMem 1 s))

/-- Words that read back different from the copy after the restore: each is handled as a parity error (R343). -/
def marchDamage (b : Bank) (base : Nat) (l : List (Fin 64 × Word)) (s : State) : State :=
  l.foldl (fun s w =>
    let a := base + 4 * w.1.val
    parityError b a .march .read (upset ⟨b, a, w.2, true⟩ s)) s

/-- One group of a preserving pass, in RUN and NAP (R339 to R344): a copy read that meets words of wrong parity leaves
the group untested. -/
def opMarchGroup (x : GroupIn) (s : State) : State :=
  let m := s.memc
  let b := m.bank.toNat
  let base := marchAddr b m.group.toNat
  if !m.running || !s.coreOn || (decide (b = 3) && x.hkIrq) then s
  else
    let s := upsets x.ups s
    if s.badIn (marchBank b) base (base + 256) ≠ [] then
      let s := readParity (marchBank b) base 256 .march .read s
      marchNext none { s with memc := { s.memc with skips := satLo s.memc.skips } }
    else
      if x.accessed then
        let s : State := { s with memc := { s.memc with yields := satW s.memc.yields } }
        if 16 ≤ m.inRow + 1 then
          marchNext none (raiseBit bMem 2 { s with memc := { s.memc with skips := satHi s.memc.skips } })
        else marchNext (some (m.inRow + 1)) s
      else match x.fail with
        | none => marchNext none s
        | some w =>
          let a := base + 4 * w.val
          marchNext none (marchDamage (marchBank b) base x.damaged (marchFail b a s))

/-! ### Check units -/

/-- The parameters of unit u (R346). -/
def State.unitCrc (s : State) (u : Nat) : CrcParams :=
  let c := s.chkReg u 0
  { width := max 7 (fld c 16 5) + 1, poly := (s.chkReg u 1).toNat, init := (s.chkReg u 2).toNat
    xorout := (s.chkReg u 3).toNat, refin := bit c 27, refout := bit c 26 }

/-- The fold words of unit u (FOLDSEL). -/
def State.unitFold (s : State) (u : Fin 2) : List Word :=
  match fld (s.chkReg u.val 0) 28 2 with
  | 1 => [s.chkReg u.val 4]
  | 2 => [s.units[u.val].seq]
  | _ => []

/-- The CRC of words by unit u. -/
def State.unitSum (s : State) (u : Fin 2) (ws : List Word) : Word :=
  BitVec.ofNat 32 (crc (s.unitCrc u.val) ((ws ++ s.unitFold u).flatMap bytesBE))

/-- MODE of unit u; a unit runs with its EN = 1 and outside the boot window (R351). -/
def State.unitMode (s : State) (u : Fin 2) : Nat :=
  if bit (s.reg 0x0A 0x01) u.val && !s.bootUnit u.val then fld (s.chkReg u.val 0) 30 2 else 0

/-- The words of unit u's region; none for a region that no bank holds whole. -/
def State.unitWords (s : State) (u : Nat) : Option (List Word) :=
  let r := s.chkReg u 5
  if bit (s.chkReg u 0) 24 then
    let p0 := fld r 24 8
    let o0 := fld r 8 8
    some ((List.range (fld r 16 8 + 1 - p0)).flatMap fun i => s.readWords (p0 + i) o0 (fld r 0 8 + 1 - o0))
  else match regionBank r with
    | none => none
    | some b =>
      let a := fld r 2 18 * 4
      let n := fld (s.chkReg u 6) 2 18
      if bankSize b < a + 4 * n then none else some (s.mwords b a n)

/-- Unit u changed by f. -/
def State.modUnit (u : Fin 2) (f : CheckUnit → CheckUnit) (s : State) : State :=
  { s with units := s.units.set u.val (f s.units[u.val]) }

/-- A check unit by its number. -/
def unitNo (one : Bool) : Fin 2 := if one then 1 else 0

def unitMaster (u : Fin 2) : Master := if u = 0 then .check0 else .check1
def unitLine (u : Fin 2) : Line := if u = 0 then lCheck0 else lCheck1

/-- A scrub pass starts, in RUN and NAP (R20, R347). -/
def opPassStart (u : Fin 2) (s : State) : State :=
  if !s.coreOn then s else if s.unitMode u ≠ 1 ∨ s.units[u.val].busy then s
  else s.modUnit u fun x => { x with busy := true, dirty := false }

/-- A discarded pass: DISC counts, and it repeats at once (R348). -/
def discardPass (u : Fin 2) (s : State) : State :=
  s.modUnit u fun x => { x with dirty := false, fresh := true, passes := satHi x.passes }

/-- The bank words a pass of unit u reads. -/
def State.unitReads (s : State) (u : Nat) : List (Bank × Nat) :=
  let r := s.chkReg u 5
  if bit (s.chkReg u 0) 24 then s.regionWords u
  else match regionBank r with
    | none => []
    | some b => (List.range (fld (s.chkReg u 6) 2 18)).map fun i => (b, fld r 2 18 * 4 + 4 * i)

/-- A scrub pass ends, in RUN and NAP (R348, R349): one that reads a word of wrong parity, or meets a soft upset of NVM, is
discarded. The result over a region that is not there is free. -/
def opPassEnd (u : Fin 2) (ups : List Upset) (s : State) : State :=
  if !s.coreOn then s else if s.unitMode u ≠ 1 ∨ ¬ s.units[u.val].busy then s
  else
    let s := upsets ups s
    let words := s.unitReads u.val
    let soft := ups.any fun x => decide (x.bank = .nvm) && !x.hard && decide ((x.bank, x.addr) ∈ words)
    if soft || words.any fun w => decide (w ∈ s.banks.bad) then discardPass u (meetParity ups words (unitMaster u) s)
    else
      if s.units[u.val].dirty then discardPass u s
      else
        let (r, s) := match s.unitWords u.val with
          | some ws => (s.unitSum u ws, s)
          | none => freeWord s
        let track := bit (s.chkReg u.val 0) 25 && s.units[u.val].fresh
        let mis := !track && decide (r ≠ s.units[u.val].expect)
        let s := s.modUnit u fun x =>
          { x with busy := false, fresh := false, result := r, passes := satLo x.passes
                   expect := if track then r else x.expect
                   miscnt := if mis then satHi x.miscnt else x.miscnt }
        let s := raiseBit bChk (8 * u.val + 1) s
        if mis then blockErrorFree bChk (unitLine u) .contained none .none 1 (raiseBit bChk (8 * u.val) s) else s

/-- The k-th word of the responses, counted through them in order, becomes v. -/
def putResponse (v : Word) : Nat → List Response → List Response
  | _, [] => []
  | k, r :: rest =>
    if k < r.data.length then { r with data := r.data.set k v } :: rest else r :: putResponse v (k - r.data.length) rest

/-- A check unit has written a word of the link buffers: whether it was a word of a response, and of which, is free, since the
manual lays the buffers out no further (R326; log entry 39). -/
def hitLink (v : Word) (s : State) : State :=
  let (w, s) := freeWord s
  let l := putResponse v w.toNat (s.link.held.toList ++ s.link.buf)
  { s with link := { s.link with
    held := if s.link.held.isSome then l.head? else none, buf := if s.link.held.isSome then l.tail else l } }

/-- A word written to the destination of unit u; words past the end of the bank are discarded. -/
def unitStore (u : Fin 2) (v : Word) (s : State) : State :=
  match regionBank (s.chkReg u.val 5) with
  | none => s
  | some b =>
    let a := fld (s.chkReg u.val 5) 2 18 * 4 + 4 * s.units[u.val].dest
    if bankSize b < a + 4 then s
    else
      let s := if b = .h ∧ inLinkBuffers a then hitLink v s else s
      (s.putWord b a v).modUnit u fun x => { x with dest := x.dest + 1 }

/-- The destination of unit u is there and has room for a word (R350). -/
def State.unitRoom (s : State) (u : Fin 2) : Bool :=
  !bit (s.chkReg u.val 0) 24 && (match regionBank (s.chkReg u.val 5) with
    | none => false
    | some b => decide (fld (s.chkReg u.val 5) 2 18 * 4 + 4 * s.units[u.val].dest + 4 ≤ bankSize b))

/-- One word handed to PORT (R350). -/
def portWord (u : Fin 2) (v : Word) (s : State) : State :=
  let len := fld (s.chkReg u.val 6) 2 18
  if !s.unitRoom u then s
  else if s.unitMode u = 2 then
    let s := (unitStore u v s).modUnit u fun x => { x with block := x.block ++ [v] }
    if s.units[u.val].block.length + 1 < len then s
    else
      let r := s.unitSum u s.units[u.val].block
      (unitStore u r s).modUnit u fun x => { x with block := [], result := r, seq := x.seq + 1 }
  else if s.unitMode u = 3 then
    let s := s.modUnit u fun x => { x with block := x.block ++ [v] }
    let bl := s.units[u.val].block
    if bl.length < len then s
    else
      let r := s.unitSum u bl.dropLast
      if r = v then
        (bl.dropLast.foldl (fun s w => unitStore u w s) s).modUnit u fun x =>
          { x with block := [], result := r, seq := x.seq + 1 }
      else
        let s := s.modUnit u fun x => { x with block := [], result := r, miscnt := satLo x.miscnt }
        blockErrorFree bChk (unitLine u) .corrected none .none 3 (raiseBit bChk (8 * u.val + 2) s)
  else s

/-- Words handed to PORT, in order. -/
def portWords (u : Fin 2) (ws : List Word) (s : State) : State := ws.foldl (fun s v => portWord u v s) s

end Sys2Proof.Machine
end

