-- ==== Sys2Proof/Machine/HkOps.lean ====
section
/-! DEFINITION. The Huwaind core: image blocks, mailbox, restart, die temperature; life-cycle, key, pairing override
(08_host_link.md, R273 to R275; 11_memories_and_checks.md, R352 to R357; 15_startup_and_lifecycle.md, R438 to R454). -/

namespace Sys2Proof.Machine

/-! ### Images -/

/-- The image at byte address a of a bank is valid with at most `most` words after its header (R439). -/
def State.imageValid (s : State) (b : Bank) (a most : Nat) : Bool :=
  let n := (s.mword b (a + 4)).toNat
  decide (s.mword b a = 0x48555749) && decide (n ≤ most)
    && decide (crc32 (s.mwords b (a + 16) n) (BitVec.ofNat 32 n) = s.mword b (a + 12))

/-- The patch partition's image is valid and reads without failure (R356). -/
def State.patchValid (s : State) : Bool :=
  s.imageValid .nvm 0x3000 10236 && s.nvmGood 0x3000 (16 + 4 * (s.mword .nvm 0x3004).toNat)

/-- The patch partition is blank (R439). -/
def State.patchBlank (s : State) : Bool := decide (s.mword .nvm 0x3000 = 0xFFFFFFFF)

/-- The recipe engine microcode patch that an image carries is loaded with it; an image without one leaves the engine's own
(R439; log entry 27). -/
def takeUcode (ws : List Word) (s : State) : State :=
  { s with sys := { s.sys with verUcode := (Config.imageUcode ws).getD Config.verUcode } }

/-- The patch image is copied to BANK-H and taken: version, check value, length (R436, R441; log entry 27). -/
def takePatch (s : State) : State :=
  let n := (s.mword .nvm 0x3004).toNat
  let s := s.putWords .h 0 (s.mwords .nvm 0x3000 (4 + n))
  { s with
      hk := { s.hk with image := .nvm, bootCrc := some (s.mword .nvm 0x300C), imageLen := 4 + n }
      sys := { s.sys with verHk := (s.mword .nvm 0x3008).setWidth 16 } }

/-- The core runs ROM alone: HKROM (R436, R440, R441). -/
def romAlone (s : State) : State :=
  { s with
      hk := { s.hk with image := .rom, imageLen := 0 }
      sys := { s.sys with verHk := Config.verHkRom, flags := s.sys.flags ||| bitW 2 } }

/-- A block handed to HK.IMGPORT while the boot window takes blocks, behind those check unit 1 still processes (R273 to
R275). `fifo`: by a WRITE_FIFO frame. -/
def imagePort (fifo : Bool) (ws : List Word) (s : State) : State :=
  if s.hk.imgOpen && !s.hk.imgEnded then
    { s with hk := { s.hk with blocks := s.hk.blocks ++ [(fifo && decide (ws.length = 256), ws)] } }
  else s

/-- A discarded block counts in BADCNT (R274). -/
def badBlock (s : State) : State :=
  { s with hk := { s.hk with badCnt := if s.hk.badCnt = 255 then 255 else s.hk.badCnt + 1 } }

/-- Check unit 1 ends its oldest block: appended on a match, else discarded and counted (R274). `coll`: the core wrote a word
of the block in the same cycle as the unit (R337). -/
def opBlockDone (coll : BitVec 4) (s : State) : State :=
  match s.hk.blocks with
  | [] => s
  | (ok, ws) :: rest =>
    let s : State := { s with hk := { s.hk with blocks := rest } }
    let k := s.hk.nextBlk
    if ok && decide (k < 96) && decide (ws[255]? = some (crc32 (ws.take 255) (BitVec.ofNat 32 k))) then
      let s := collide coll (s.putWords .h (1020 * k) (ws.take 255))
      { s with hk := { s.hk with nextBlk := k + 1 } }
    else badBlock s

/-- An effective write of HK.IMGCTRL: RESTART, then END (R274, R275; log entry 28). A block accepted and not yet processed is kept
by RESTART and judged as block 0, where the manual is silent (log entry 97). -/
def imgctrl (v : Word) (s : State) : State :=
  if !s.hk.imgOpen || s.hk.imgEnded then s
  else
    let s : State := if bit v 1 then
        let s := s.blankRange .h 0 (1020 * 96)
        { s with hk := { s.hk with nextBlk := 0, badCnt := 0 } }
      else s
    if bit v 0 then { s with hk := { s.hk with imgEnded := true } } else s

/-! ### Mailbox (R444, R445, R447) -/

/-- The mailbox arguments. -/
def State.mbArg (s : State) (k : Nat) : Nat := (s.reg 0x11 (0x09 + k)).toNat

/-- ERASE and PROG may act on [a, e) (R445). -/
def State.nvmAllowed (s : State) (a e : Nat) : Bool :=
  decide (e ≤ 0xE000) && (decide (0x1000 ≤ a) || decide (s.sec.life = .factory ∨ s.sec.life = .calibrated))

/-- The bytes a mailbox command with these arguments touches; none where they break the table of R444. -/
def State.mbRange (s : State) (cmd : Byte) : Option (Nat × Nat) :=
  let a := s.mbArg 0
  let n := s.mbArg 1
  if cmd = 1 then (if a % 512 = 0 ∧ 1 ≤ n ∧ n ≤ 128 then some (a, a + 512 * n) else none)
  else if cmd = 2 then (if a % 4 = 0 ∧ 1 ≤ n ∧ n ≤ 64 then some (a, a + 4 * n) else none)
  else none

/-- The configuration image is good and reads without failure (R356, R436, R444). -/
def State.configGood (s : State) : Bool :=
  let n := fld (s.mword .nvm 0x1004) 0 16
  decide (s.mword .nvm 0x1000 = 0x43464731) && decide (n ≤ 1022) && s.nvmGood 0x1000 (16 + 8 * n)
    && decide (crc32 (s.mwords .nvm 0x1010 (2 * n)) (BitVec.ofNat 32 n) = s.mword .nvm 0x100C)

/-- Words programmed upward from address a until one is not erased: the result (R444, R445; log entry 29). -/
def progWords : Nat → List Word → State → Byte × State
  | _, [], s => (0, s)
  | a, v :: rest, s =>
    if s.mword .nvm a = 0xFFFFFFFF then progWords (a + 4) rest (s.putWord .nvm a v) else (3, s)

/-- The words of MBDATA. -/
def State.mbData (s : State) (n : Nat) : List Word := (List.range n).map fun i => s.reg 0x11 (0x40 + i)

/-- The NVM bytes a mailbox command reads, from an address: the words PROG is to program, the calibration partition, the
configuration image. -/
def State.mbReads (s : State) (cmd : Byte) : Nat × Nat :=
  if cmd = 2 then match s.mbRange cmd with
    | some (a, e) => (a, e - a)
    | none => (0, 0)
  else if cmd = 3 then (0, 0x1000)
  else if cmd = 4 then (0x1000, 16 + 8 * min 1022 (fld (s.mword .nvm 0x1004) 0 16))
  else (0, 0)

/-- What a mailbox command does and its RESULT, with the arguments as they stand at its end (log entry 30). `nvmOk`: its
erase, program and reads succeed. For arguments outside the table the manual states no result: one of its codes 0 to 6,
free (log entry 3). -/
def mailboxRun (cmd : Byte) (nvmOk : Bool) (s : State) : Byte × State :=
  if cmd = 1 ∨ cmd = 2 then
    match s.mbRange cmd with
    | none =>
      let (w, s) := freeWord s
      (BitVec.ofNat 8 (w.toNat % 7), s)
    | some (a, e) =>
      if !s.nvmAllowed a e then (2, s)
      else if !nvmOk then (4, s)
      else if cmd = 1 then (0, s.blankRange .nvm a e)
      else progWords a (s.mbData ((e - a) / 4)) s
  else if cmd = 3 then
    if s.sec.life ≠ .calibrated ∧ s.sec.life ≠ .field then (2, s)
    else if !nvmOk then (4, s)
    else (0, s.putSecItem 0x24 (sha256 (s.mbytes .nvm 0 0x1000)))
  else if cmd = 4 then (if !nvmOk then 4 else if s.configGood then 0 else 5, s)
  else (1, s)

/-- A mailbox command ends with a result (R444, R454). -/
def mailboxEnd (r : Byte) (s : State) : State :=
  raiseBit bHk (if r = 0 then 0 else 1)
    { s with hk := { s.hk with cmd := none, result := r }, nvm := { busy := false, dropped := false } }

/-- MAILBOX_DONE, while the core runs; a restart aborts the command (R441). A command whose NVM reads fail, or whose erase or
program a BLOCK_RESET abandoned, ends with NVMFAIL (R20, R305, R356; log entry 81). -/
def opMailboxDone (nvmOk : Bool) (ups : List Upset) (s : State) : State :=
  if !s.works dHk || s.hk.restarting then s
  else match s.hk.cmd with
  | none => s
  | some c =>
    let (a, n) := s.mbReads c
    let s := readNvm ups a n .hkcore (upsets ups s)
    let (r, s) := mailboxRun c (nvmOk && !s.nvm.dropped && s.nvmGood a n) s
    mailboxEnd r s

/-- An effective write of HK.MBCMD (R444). -/
def mbcmd (v : Word) (s : State) : State :=
  if s.hk.cmd.isSome then raiseBit bHk 1 s
  else
    let c : Byte := v.setWidth 8
    let busy := match s.mbRange c with
      | some (a, e) => s.nvmAllowed a e
      | none => false
    { s with hk := { s.hk with cmd := some c }, nvm := { s.nvm with busy := s.nvm.busy || busy } }

/-! ### Restart (R441) -/

/-- The mailbox registers return to their reset values: writes that a pass over them meets (R348). -/
def clearMailbox (s : State) : State :=
  let s := (List.range 66).foldl (fun s i => touchReg 0x11 (if i < 2 then 0x09 + i else 0x3E + i) s) s
  { s with regs := sparseDrop (regKey 0x11 0x40) (regKey 0x11 0x80)
                     (sparseDrop (regKey 0x11 0x09) (regKey 0x11 0x0B) s.regs) }

/-- The code is reloaded from the patch image that start-up loaded, or the core runs ROM alone. -/
def reloadCode (s : State) : State :=
  if s.patchValid && decide (s.hk.bootCrc = some (s.mword .nvm 0x300C)) then takePatch s
  else romAlone s

/-- A fixture sequence in progress is abandoned and runs again as for REREAD. -/
def rerunFixture (s : State) : State := if s.fix.running.isSome then resetFixture s else s

/-- Pairing is checked, from the pairing list and the overrides as they read (R329, R356, R449). -/
def readPairing (ups : List Upset) (s : State) : State :=
  let s := readNvm ups 0xD000 (72 + 8 * min 503 s.pairCount) .hkcore s
  checkPairing (readSecure ups 0x48 (4 + 4 * min 1005 (s.mword .s 0x48).toNat) .hkcore s)

/-- The restart ends, while HK is on: data area and mailbox cleared, code, pairing, fixture, RESTART. The reads of the
patch image and of the pairing list may meet upsets (R356). -/
def opRestartDone (ups : List Upset) (s : State) : State :=
  if !s.hk.restarting || !s.works dHk then s
  else
    let s := upsets ups s
    let s := if s.hk.bootCrc.isSome then readNvm ups 0x3000 (16 + 4 * min 10236 (s.mword .nvm 0x3004).toNat) .hkcore s else s
    let s : State := if s.hk.cmd.isSome then mailboxEnd 6 s else { s with hk := { s.hk with result := 0 } }
    let s := clearMailbox (((s.blankRange .h 0 0x18000).blankRange .h 0x1C800 0x20000))
    let s := rerunFixture (readPairing ups (reloadCode s))
    raiseBit bHk 4 { s with hk := { s.hk with restarting := false, mends := [] } }

/-- A missed watchdog service (R442), while HK is on. -/
def opWatchdog (s : State) : State := if !s.works dHk then s else blockErrorFree bHk lWatchdog .contained none .none 0 s

/-- A reading of the die temperature (R443), while HK is on. -/
def opDieTemp (t : Int) (s : State) : State :=
  if !s.works dHk then s
  else
  let w := sfld (s.reg 0x11 0x0D) 0 16
  let t := clampI (-32768) 32767 t
  let warn := if s.hk.warn then decide (w - 500 < t) else decide (w < t)
  let hot := if s.hk.hot then decide (14500 < t) else decide (15000 ≤ t)
  let newWarn := warn && !s.hk.warn
  let newHot := hot && !s.hk.hot
  let s : State := { s with hk := { s.hk with dieTemp := ofI16 t, warn := warn, hot := hot } }
  let s := raiseIf newHot bHk 3 (raiseIf newWarn bHk 2 s)
  if newHot && !s.hk.restarting then blockErrorFree bHk lThermal .contained none .none 4 s else s

/-! ### Life-cycle, key, override -/

/-- The transitions of the life-cycle table. -/
def lifeAllows : Life → Nat → Option Life
  | .blank, 1 => some .factory
  | .factory, 2 => some .calibrated
  | .factory, 4 => some .returned
  | .calibrated, 3 => some .field
  | .calibrated, 4 => some .returned
  | .field, 4 => some .returned
  | _, _ => none

/-- Some cell channel is ARMED, RUN or HOLD. -/
def State.anyLive (s : State) : Bool := allChans.any fun n => (s.cell n).seq.state.live

/-- An effective write of SEC.LCCMD (R451; log entry 31 on a wrong key). -/
def lccmd (v : Word) (s : State) : State :=
  match (if fld v 16 16 = 0x4C43 then lifeAllows s.sec.life (fld v 0 3) else none) with
  | some t =>
    if s.sec.pend.isSome || s.anyLive || s.fcol.failStop then raiseBit bSec 14 s
    else
      let s : State := { s with sec := { s.sec with life := t, pend := some t } }
      wipeFlags (closeAllLocks s)
  | none => raiseBit bSec 14 s

/-- The erase of the secure partition, in RUN, ends (R355, R451): the partition is read to be erased, NVPEND clears, WIPED, the
pending transition ends, and pairing is checked (R449); these reads may meet upsets (R356). Where the check read fails the erase
has not completed and goes on, for which the manual gives no rule (log entry 81). -/
def opEraseDone (ups : List Upset) (s : State) : State :=
  if !s.sec.nvpend || !s.sec.erasing || s.hk.restarting || decide (s.pwr.state ≠ .run) then s
  else
    let s := readNvm ups 0xE000 0x1000 .hkcore (upsets ups (s.blankRange .nvm 0xE000 0xF000))
    if !s.nvmGood 0xE000 0x1000 then s else
    let done := s.sec.pend.isSome
    let s : State := { s with sec := { s.sec with nvpend := false, erasing := false, pend := none } }
    readPairing ups (raiseIf done bSec 12 (raiseBit bSec 4 s))

/-- Words handed to SEC.KEYPORT (R353), a key to BANK-S and to the secure partition: `fifo` by WRITE_FIFO;
`open`: the lock lets the master write. -/
def keyPort (fifo isOpen : Bool) (ws : List Word) (s : State) : State :=
  if !isOpen then lkDrop bSec s
  else
    let ok := match s.sec.life with
      | .factory => true
      | .calibrated => true
      | .field => true
      | _ => false
    if fifo && decide (ws.length = 8) && ok then
      triggerSequence .plain (s.putSecItem 0 (ws.flatMap bytesBE))
    else raiseBit bSec 7 s

/-- An effective write of SYS.PAIR_OVERRIDE (R450). -/
def pairOverride (v : Word) (s : State) : State :=
  if v = s.pairq ∧ s.sec.life ≠ .returned then
    let was := s.sys.unpaired
    let s := addOverride v (readSecure [] 0x48 (4 + 4 * min 1005 (s.mword .s 0x48).toNat) .hkcore s)
    let s : State := { s with
      sys := { s.sys with pairLog := s.sys.pairLog + 1, pairTime := s.timeL, unpaired := false
                          ovrUsed := !s.sys.listed } }
    raiseIf was bSys 0 (blockErrorFree bSec lSecure .corrected none .none 14 (raiseBit bSec 13 s))
  else raiseBit bSys 1 s

/-- TAMPER# low for some time (R354, R463): pulses under 1 µs are ignored. -/
def opTamper (lowNs : Nat) (s : State) : State :=
  if lowNs < 1000 then s
  else
    let s := noteTrigger 0 true s
    wakeBy 8 0 { s with sec := { s.sec with trig := s.sec.trig &&& 0xE } }

/-- A supply excursion (R354). -/
def opGlitch (permille : Int) (ns : Nat) (s : State) : State :=
  if bit (s.reg 0x10 0x01) 2 ∧ 200 < permille.natAbs ∧ 20 ≤ ns ∧ ns ≤ 10000 then
    let s := noteTrigger 2 true s
    { s with sec := { s.sec with trig := s.sec.trig &&& 0xB } }
  else s

/-- An excursion of VDDIO or of VDDA: one rule for both (R354). -/
def opSupplyGlitch (_ : Bool) (permille : Int) (ns : Nat) (s : State) : State := opGlitch permille ns s

/-- The AON temperature detector (R354). -/
def opTempTamper (t : Int) (s : State) : State :=
  noteTrigger 3 (bit (s.reg 0x10 0x01) 3 && decide (t < -5500 ∨ 16000 < t)) s

end Sys2Proof.Machine
end

