-- ==== Sys2Proof/Machine/FieldOps.lean ====
section
/-! DEFINITION. IO24: input filter, wire break, overload, safe values, L+ (13_field_io_and_fixture.md, R382 to R394). -/

namespace Sys2Proof.Machine

/-- TON and TOFF in force (R384). -/
def ioThresholds (c : Word) : Nat × Nat :=
  let ton := max 1 (fld c 8 8)
  let toff := fld c 0 8
  (ton, if ton ≤ toff then ton - 1 else toff)

/-- SPER in force, in units of 10 µs. -/
def ioPeriod (c : Word) : Nat := clampN 1 100 (fld c 18 7)

/-- One sample of the counter filter (R384). -/
def Pin.sample (ton toff : Nat) (hi : Bool) (p : Pin) : Pin :=
  let n : Byte := if hi then (if p.integ = 255 then 255 else p.integ + 1) else (if p.integ = 0 then 0 else p.integ - 1)
  { p with integ := n, raw := hi, phase := 0
           filt := if !p.filt && decide (ton ≤ n.toNat) then true
                   else if p.filt && decide (n.toNat ≤ toff) then false else p.filt }

/-- Pin inputs are sampled: neither in DOZE or SLEEP nor while L+ is missing (R359, R386). -/
def State.samples (s : State) : Bool := !s.asleep && s.works dIo24

/-- A sample of pin k and its EDGE (R385). -/
def samplePin (k : Fin 8) (hi : Bool) (s : State) : State :=
  let th := ioThresholds (s.pcfg k)
  let p := s.io.pins[k.val]
  let q := p.sample th.1 th.2 hi
  let s := s.modPin k fun _ => { q with drove := if s.isOut k then p.drove else q.filt }
  raiseIf (!s.isOut k && (q.filt != p.filt)) bIo24 k.val s

/-- One instant of 10 µs of pin k with its comparator level; every SPER-th is sampled (R384). -/
def instantPin (k : Fin 8) (hi : Bool) (s : State) : State :=
  if ioPeriod (s.pcfg k) ≤ s.io.pins[k.val].phase + 1 then samplePin k hi s
  else s.modPin k fun p => { p with raw := hi, phase := p.phase + 1 }

/-- An IO24 error: ERR_CAP.DETAIL and the report (R394). -/
def ioError (bitNo : Nat) (c : FClass) (s : State) : State :=
  blockError bIo24 ((bitNo + 1) * 2 ^ 17 + s.frameBits 16) lIo24 c none .none (bitNo + 1) (raiseBit bIo24 bitNo s)

/-- A wire break on pin k; `gone`: the current has been back at 0.25 mA or more for 10 ms (R387). -/
def opWireBreak (k : Fin 8) (gone : Bool) (s : State) : State :=
  if s.isOut k || !bit (s.pcfg k) 29 || !s.samples || s.io.pins[k.val].wb != gone then s
  else if gone then s.modPin k fun p => { p with wb := false }
  else ioError (8 + k.val) .corrected (s.modPin k fun p => { p with wb := true })

/-- An overload of output pin k, whose switch is on (R389). -/
def opOverload (k : Fin 8) (thermal : Bool) (s : State) : State :=
  if !s.isOut k || !s.outLevel k then s
  else ioError (16 + k.val) .corrected (s.modPin k fun p =>
    if thermal then { p with ovlT := true } else { p with ovlC := true })

/-- A write of OVLRST; `hot`: pins at or above their thermal restart temperature (R389). -/
def ovlrst (v : Word) (hot : Byte) (s : State) : State :=
  allPins.foldl (fun s k =>
    if bit v k.val && !hot.getLsbD k.val then s.modPin k fun p => { p with ovlT := false, ovlC := false } else s) s

/-- A trigger of R391 holds for pin k. -/
def State.safeHolds (s : State) (k : Fin 8) : Bool :=
  s.estop || s.mgmt.stop || s.fcol.failStop
    || (s.link.hgp0.lost && decide (fld (s.pcfg k) 26 2 = 1)) || (s.link.hgp1.lost && decide (fld (s.pcfg k) 26 2 = 2))

/-- CTRL.SAFEREL (R392). -/
def saferel (s : State) : State :=
  allPins.foldl (fun s k => if s.safeHolds k then s else s.modPin k fun p => { p with safeLatch := false }) s

/-- PCFG of pin k is written: integrator and filtered state restart at 0; a pin without wire-break detection shows no
wire break (R384, R387). -/
def pcfgWritten (k : Fin 8) (s : State) : State :=
  let keep := !s.isOut k && bit (s.pcfg k) 29
  s.modPin k fun p => { p.restart with wb := p.wb && keep }

/-- L+ falls below 9.0 V (R393). -/
def opLpMissing (s : State) : State :=
  if s.io.lpMiss then s
  else
    let low := !s.io.lpLow
    let s : State := { s with io := { s.io with lpMiss := true, lpLow := true } }
    ioError 24 .contained (raiseIf low bIo24 25 s)

/-- L+ rises above 10.0 V: the integrators restart from their held states (R386, R393). -/
def opLpReturn (s : State) : State :=
  if !s.io.lpMiss then s
  else { s with io := { s.io with
    lpMiss := false, pins := s.io.pins.map fun p => { p with integ := if p.filt then 255 else 0 } } }

/-- L+ falls below 18.0 V (R393). -/
def opLpLow (s : State) : State :=
  if s.io.lpLow then s else raiseBit bIo24 25 { s with io := { s.io with lpLow := true } }

end Sys2Proof.Machine
end

