-- ==== Sys2Proof/Machine/FixOps.lean ====
section
/-! DEFINITION. The fixture port: tag header, authentication, count, wear, sequences, clamp, override, bus
(13_field_io_and_fixture.md, R395 to R411). -/

namespace Sys2Proof.Machine

/-! ### Tag bytes -/

/-- n bytes of a tag image from address a, as a number, most significant byte first (R395). -/
def tagNat (d : List Byte) (a n : Nat) : Nat := beNat ((d.drop a).take n)

/-- The n bytes of a number, most significant byte first (R395). -/
def bytesOf (n v : Nat) : List Byte := ((List.range n).map fun i => BitVec.ofNat 8 (v / 256 ^ i)).reverse

/-- The header is accepted (R397). -/
def headerGood (d : List Byte) : Bool :=
  decide (tagNat d 0 1 = 1) && decide (tagNat d 0x3E 2 = (crc16 (d.take 0x3E)).toNat)

/-- One count copy (R398). -/
structure CountCopy where
  seq : Nat
  cycles : Nat
  dayStamp : Nat
  days : Nat
  deriving DecidableEq, Repr

/-- The count copy at address a, if its CRC checks. -/
def countCopy (d : List Byte) (a : Nat) : Option CountCopy :=
  let serial := (d.drop 0x0A).take 2
  if tagNat d (a + 14) 2 = (crc16 ((d.drop a).take 14 ++ serial)).toNat then
    some ⟨tagNat d a 4, tagNat d (a + 4) 4, tagNat d (a + 8) 4, tagNat d (a + 12) 2⟩
  else none

/-- The current copy, and the tag address of the other one (R398). -/
def currentCopy (d : List Byte) : Option (CountCopy × Nat) :=
  match countCopy d 0x40, countCopy d 0x50 with
  | some a, some b => if (a.seq + 2 ^ 32 - b.seq) % 2 ^ 32 < 2 ^ 31 then some (a, 0x50) else some (b, 0x40)
  | some a, none => some (a, 0x50)
  | none, some b => some (b, 0x40)
  | none, none => none

/-- The sixteen bytes of a count copy, its CRC folded with the tag's SERIAL (R398). -/
def CountCopy.bytes (c : CountCopy) (d : List Byte) : List Byte :=
  let body := bytesOf 4 c.seq ++ bytesOf 4 c.cycles ++ bytesOf 4 c.dayStamp ++ bytesOf 2 c.days
  body ++ bytesOf 2 (crc16 (body ++ (d.drop 0x0A).take 2)).toNat

/-! ### Errors -/

/-- A FIX error: its bit, ERR_CAP.DETAIL with a tag address, and the report (R411). -/
def fixErrorAt (bitNo addr : Nat) (c : FClass) (s : State) : State :=
  blockError bFix ((bitNo + 1) * 2 ^ 19 + addr * 2 ^ 8 + s.frameBits 8) lFixture c none .none (bitNo + 1) (raiseBit bFix bitNo s)

/-- A FIX error for which the manual names no failing transfer: a free tag address (log entry 3). -/
def fixError (bitNo : Nat) (c : FClass) (s : State) : State :=
  let (w, s) := freeWord s
  fixErrorAt bitNo (fld w 0 8) c s

/-! ### Wear (R402, R403) -/

/-- STATE by the wear figures; resistances are signed (R9). -/
def Fix.wear (f : Fix) : BitVec 3 :=
  let dayLim := fld f.dayLims 16 16
  let dayWarn := fld f.dayLims 0 16
  if f.cntBad ∨ (f.cycLim ≠ 0 ∧ f.cycLim.toNat ≤ f.cycles.toNat) ∨ (dayLim ≠ 0 ∧ dayLim ≤ f.days.toNat)
      ∨ (f.crLim ≠ 0 ∧ 3 ≤ f.crRun.toNat) then 4
  else if (f.cycWarn ≠ 0 ∧ f.cycWarn.toNat ≤ f.cycles.toNat) ∨ (dayWarn ≠ 0 ∧ dayWarn ≤ f.days.toNat)
      ∨ (f.crWarn ≠ 0 ∧ f.crWarn.toInt < f.crMax.toInt) then 3
  else 2

/-- The channels that count in R403, with their CRES. -/
def State.contactValues (s : State) : List Int :=
  ((chansOf (s.reg 0x07 0x10)).filter fun n => (s.cell n).meas.cresValid).map fun n => (s.cell n).meas.cres.toInt

/-- What a clamp open serves (R403). -/
def serveOpen (s : State) : State :=
  let s := match s.contactValues with
    | [] => s
    | x :: xs =>
      let m := xs.foldl max x
      let bad := decide (s.fix.crLim ≠ 0) && decide (s.fix.crLim.toInt < m)
      { s with fix := { s.fix with
        crMax := BitVec.ofInt 32 m
        crRun := if bad then (if s.fix.crRun = 255 then 255 else s.fix.crRun + 1) else 0 } }
  if s.fixEn && decide (2 ≤ s.fix.state) then
    let st := s.fix.wear
    raiseIf (decide (st ≠ s.fix.state)) bFix 0 { s with fix := { s.fix with state := st } }
  else s

/-! ### The read sequence (R400, R401) -/

/-- Step 2: a new head, or the first since start-up. -/
def loadHead (d : List Byte) (s : State) : State :=
  let f := s.fix
  let serial : BitVec 64 := BitVec.ofNat 64 (tagNat d 4 8)
  if f.loaded ∧ serial = f.serial then s
  else { s with fix := { f with
    loaded := true, ovr := false, crMax := 0, crRun := 0, serial := serial, htype := BitVec.ofNat 16 (tagNat d 2 2)
    cycLim := BitVec.ofNat 32 (tagNat d 0x0C 4), cycWarn := BitVec.ofNat 32 (tagNat d 0x10 4)
    dayLims := BitVec.ofNat 32 (tagNat d 0x14 4), crWarn := BitVec.ofNat 32 (tagNat d 0x18 4)
    crLim := BitVec.ofNat 32 (tagNat d 0x1C 4) } }

/-- Some attempt's response is the HMAC of its challenge and the header bytes (R400). -/
def authGood (key d : List Byte) (tries : List (List Byte × Option (List Byte))) : Bool :=
  (tries.take 2).any fun t => match t.2 with
    | some r => decide (r = hmac256 key (t.1 ++ d.take 0x40))
    | none => false

/-- Step 3: the key read from BANK-S, whose words are reloaded where their parity is wrong (R330). -/
def authenticate (x : TagIn) (d : List Byte) (s : State) : Bool × State :=
  let s := readSecure x.ups 0 36 .none s
  match s.secKey with
  | none => (false, { s with fix := { s.fix with pass := false, noKey := true } })
  | some key =>
    if authGood key d x.tries then (true, { s with fix := { s.fix with pass := true, noKey := false } })
    else
      let s : State := { s with fix := { s.fix with
        pass := false, noKey := false, fails := if s.fix.fails = 255 then 255 else s.fix.fails + 1 } }
      (false, fixError 2 .contained s)

/-- The copy a count update writes (R399). -/
def State.newCopy (s : State) (c : CountCopy) : CountCopy :=
  let d := s.clk.sec.toNat / 86400 % 2 ^ 32
  let inv := bit (s.status bClk) 5
  { seq := (c.seq + 1) % 2 ^ 32, cycles := (c.cycles + 1 + s.fix.pendCnt.toNat) % 2 ^ 32
    dayStamp := if inv then c.dayStamp else d
    days := if !inv && decide (d ≠ c.dayStamp) then (c.days + 1) % 2 ^ 16 else c.days }

/-- FIX.CYCLES and FIX.DAYS from a copy. -/
def showCount (c : CountCopy) (s : State) : State :=
  { s with fix := { s.fix with cycles := BitVec.ofNat 32 c.cycles, days := BitVec.ofNat 16 c.days } }

/-- Step 4: the count of the current copy, and the update of a clamp close, which writes the copy that is not current and
checks what it reads back (R398, R399). -/
def countStep (k : SeqKind) (x : TagIn) (d : List Byte) (s : State) : State :=
  match currentCopy d with
  | none => fixError 6 .contained { s with fix := { s.fix with cntBad := true } }
  | some (c, other) =>
    let s := showCount c { s with fix := { s.fix with cntBad := false } }
    if k = .clampClose ∧ bit (s.reg 0x07 0x08) 6 then
      let new := s.newCopy c
      let img := new.bytes d
      let s : State := { s with fix := { s.fix with sent := some (other, img) } }
      if x.back = some img then
        let s := showCount new s
        { s with fix := { s.fix with pendCnt := 0 } }
      else fixErrorAt 4 other .contained (pendInc s)
    else s

/-- The steps of a sequence; the state it reaches (R401). -/
def sequenceSteps (k : SeqKind) (x : TagIn) (s : State) : BitVec 3 × State :=
  match x.data with
  | none => (0, { s with fix := { s.fix with ovr := false, pass := false } })
  | some d =>
    if !headerGood d then
      (0, fixError 5 .corrected { s with fix := { s.fix with hdrBad := true, ovr := false, pass := false } })
    else
      let s := loadHead d { s with fix := { s.fix with hdrBad := false } }
      let (ok, s) := authenticate x d s
      if !ok then (1, s)
      else
        let s := countStep k x d s
        (s.fix.wear, s)

/-- The next waiting event begins: clamp opens are served, a clamp close of a device that does not own the count waits
for its own 100 ms (R401, R403). -/
def nextWaiting : List SeqKind → State → State
  | [], s => { s with fix := { s.fix with waiting := [] } }
  | k :: rest, s =>
    if k = .clampOpen then nextWaiting rest (serveOpen s)
    else if k = .clampClose ∧ ¬ bit (s.reg 0x07 0x08) 6 then { s with fix := { s.fix with waiting := k :: rest } }
    else beginSequence k { s with fix := { s.fix with waiting := rest } }

/-- The port turns to what waits. -/
def serveWaiting (s : State) : State := nextWaiting s.fix.waiting s

/-- A waiting sequence begins when none runs. -/
def beginWaiting (s : State) : State :=
  if s.fix.running.isSome || !s.fixEn then s
  else match s.fix.waiting with
    | [] => s
    | k :: rest => if k = .clampOpen then s else beginSequence k { s with fix := { s.fix with waiting := rest } }

/-- The port runs sequences: in RUN and NAP, with the core, which restarts them when its own restart ends (R20, R441). -/
def State.portRuns (s : State) : Bool := s.coreOn && !s.hk.restarting

/-- FIXTURE_SEQUENCE: the sequence in progress does its steps. -/
def opSequence (x : TagIn) (s : State) : State :=
  if !s.portRuns then s else
  let s := upsets x.ups (beginWaiting s)
  match s.fix.running, s.fix.result with
  | some k, none =>
    let (r, s) := sequenceSteps k x { s with fix := { s.fix with busLow := false } }
    { s with fix := { s.fix with result := some r } }
  | _, _ => s

/-- FIXTURE_SEQUENCE_END: the new state, EVAL, and STATECHG where STATE changed in the sequence or changes at its end
(R401, R411; log entry 89). -/
def opSequenceEnd (s : State) : State :=
  if !s.portRuns then s else match s.fix.running, s.fix.result with
  | some _, some r =>
    let chg := decide (r ≠ s.fix.before) || decide (r ≠ s.fix.state)
    let s : State := { s with fix := { s.fix with state := r, running := none, result := none, losses := 0 } }
    serveWaiting (raiseIf chg bFix 0 (raiseBit bFix 1 s))
  | _, _ => s

/-! ### Clamp -/

/-- The clamp pin's filtered state is at CLPLVL, with CLPEN = 1. -/
def State.clampOn (s : State) : Bool := bit (s.reg 0x07 0x08) 4

/-- The filtered state of the clamp pin. -/
def State.clampLevel (s : State) : Bool := s.filtered (Fin.ofNat 8 (s.regF 0x07 0x08 0 3))
def State.clampClosed (s : State) : Bool := s.clampLevel == bit (s.reg 0x07 0x08) 5

/-- The clamp pin, in use, has changed since the port served it last. -/
def State.clampMoved (s : State) : Bool := s.clampOn && (s.clampLevel != s.fix.seen)

/-- The port takes the clamp pin's level as served: after a change, and after a write of CFG. -/
def seeClamp (s : State) : State := { s with fix := { s.fix with seen := s.clampLevel } }

/-- CRES of every channel is no longer valid and reads 0 (R212). -/
def clearCres (s : State) : State :=
  forChans allChans (fun n s => s.modCell n fun c =>
    { c with meas := { c.meas with cres := 0, cresValid := false, cresCount := 0, cresHist := [] } }) s

/-- CLAMP_CLOSE, in CORE (R20, R401, R403, R405, R212). -/
def opClampClose (s : State) : State :=
  if !s.coreOn || !s.clampMoved || !s.clampClosed then s
  else
    let s := clearCres (seeClamp s)
    if !s.fixEn then s
    else if SeqKind.clampClose ∈ s.fix.waiting then pendInc s
    else if bit (s.reg 0x07 0x08) 6 then triggerSequence .clampClose s
    else { s with fix := { s.fix with waiting := s.fix.waiting ++ [.clampClose] } }

/-- CLAMP_OPEN, in CORE (R20, R403). -/
def opClampOpen (s : State) : State :=
  if !s.coreOn || !s.clampMoved || s.clampClosed then s
  else
    let s := seeClamp s
    if s.fix.running.isSome then { s with fix := { s.fix with waiting := s.fix.waiting ++ [.clampOpen] } } else serveOpen s

/-! ### Registers and bus -/

/-- A write of FIX.CMD (R401). -/
def fixCmd (v : Word) (s : State) : State := if bit v 0 then triggerSequence .plain s else s

/-- An effective write of FIX.OVERRIDE (R406). -/
def fixOverride (v : Word) (s : State) : State :=
  let f := s.fix
  let ser : BitVec 16 := v.extractLsb' 16 16
  if !bit v 0 then { s with fix := { f with ovr := false, ser16 := ser } }
  else if s.fixEn && decide (f.state = 4) && decide (ser = f.serial.setWidth 16) then
    fixError 8 .corrected { s with fix := { f with
      ovr := true, ser16 := ser, ovrCnt := f.ovrCnt + 1, ovrTime := s.timeL } }
  else s

/-- CTRL.EN written 0: no sequence runs (R405). -/
def fixDisable (s : State) : State :=
  if s.fixEn then s else { s with fix := { s.fix with running := none, result := none, waiting := [], losses := 0 } }

/-- A transfer that lost arbitration is retried, up to the fifteenth loss of a sequence (R409). -/
def opArbRetry (s : State) : State :=
  if s.portRuns && s.fix.running.isSome && decide (s.fix.losses < 15) then
    raiseBit bFix 3 { s with fix := { s.fix with losses := s.fix.losses + 1 } }
  else s

/-- The bus is recovered, or the sequence abandoned (R409); with CTRL.EN = 0 the port does not run. `losses`: the sixteenth loss
brought it here, of a transfer at this tag address, which DETAIL then shows (R411). -/
def opBusStuck (freed : Bool) (losses : Option Byte) (s : State) : State :=
  if !s.fixEn || !s.portRuns || (losses.isSome && (s.fix.running.isNone || decide (s.fix.losses < 15))) then s
  else
    let s := raiseIf losses.isSome bFix 3 s
    if freed then { s with fix := { s.fix with busLow := false, losses := if losses.isSome then 0 else s.fix.losses } }
    else
      let s := if s.clampOwed then pendInc s else s
      let s : State := { s with fix := { s.fix with state := 1, running := none, result := none, losses := 0, busLow := true } }
      serveWaiting (match losses with
        | some a => fixErrorAt 7 a.toNat .contained s
        | none => fixError 7 .contained s)

end Sys2Proof.Machine
end

