-- ==== Sys2Proof/Machine/BenchOps.lean ====
section
/-! DEFINITION. BENCH protection, throttle, demand output and host reservation (07_bench_bus.md, R213 to R242). -/

namespace Sys2Proof.Machine

/-- A BENCH error of class contained with its code (R242). -/
def benchError (code : Nat) (s : State) : State :=
  blockError bBench (code * 2 ^ 19 + s.frameBits 16) lBench .contained none .none code s

/-- VOLTAGE_THROTTLE. The BENCH chains, whose voltage these rules filter, sit in MEASB (R213). -/
def opThrottle (vb : Int) (s : State) : State := if s.works dMeasB then setVb vb s else s

/-- BENCH_OV (R232). -/
def opBenchOv (vb : Int) (s : State) : State :=
  if !s.works dMeasB || !decide (s.benchI 0x25 < vb) then s
  else
    let new := !s.bench.bov
    let s := setVb vb { s with bench := { s.bench with bov := true } }
    if new then benchError 1 (raiseBit bBench 4 s) else s

/-- BENCH_OV_PERSIST: channels with a negative reference enter SAFE (R232). -/
def opOvPersist (vb : Int) (s : State) : State :=
  if !s.works dMeasB || !s.bench.bov || !decide (s.benchI 0x25 < vb) then s
  else
    let s := setVb vb s
    forChans allChans (fun n t => if (s.cell n).ps.iref < 0 && s.onBench n then enterSafe n t else t) s

/-- While V_B is below V_UV, channels with a positive reference enter SAFE (R233). -/
def uvGuard (s : State) : State :=
  if !s.bench.buv then s
  else forChans allChans (fun n t => if decide (0 < (s.cell n).ps.iref) && s.onBench n then enterSafe n t else t) s

/-- BENCH_UV (R233). -/
def opBenchUv (vb : Int) (s : State) : State :=
  if !s.works dMeasB || !decide (vb < s.benchI 0x27) then s
  else
    let new := !s.bench.buv
    let s := setVb vb { s with bench := { s.bench with buv := true } }
    let s := uvGuard s
    if new then benchError 2 (raiseBit bBench 5 s) else s

/-- The filtered bus voltage, or what it is compared with, is another one: the conditions of R232 and R233 that no longer hold
end and those that now hold begin. -/
def judgeVb (vb : Int) (s : State) : State := opBenchUv vb (opBenchOv vb (setVb vb s))

/-- BENCH_UVW: V_B lies below V_UVW and has not been seen there yet. A new VB is looked at where it is published (`useVb`);
what is left is a V_UVW written above it (R20, R224, R242). -/
def opUvw (s : State) : State := if s.coreOn && s.uvwLow then seeUvw s else s

/-- BENCH_UVW_END: V_B is no longer below V_UVW. -/
def opUvwEnd (s : State) : State := if s.coreOn && !s.uvwLow then seeUvw s else s

/-- BENCH_SENSE_MISMATCH, in MEASB (R20): VB has been off by more than 5 % for 10 frames; the mean of the channels' readings
takes its place for every rule of the chapter (R214). -/
def opSense (s : State) : State :=
  if !s.works dMeasB || s.bench.senseFar < 10 || s.bench.subst then s
  else benchError 3 (raiseBit bBench 9 (judgeVb s.bench.vbLocal (useVb s.bench.vbLocal
    { s with bench := { s.bench with subst := true, senseClear := 0 } })))

/-- QSTALL of the entries that satisfy f and have not stalled before, while CORE works (R20, R225). -/
def noteStalls (f : QEntry → Bool) (s : State) : State :=
  let hit (x : QEntry) : Bool := s.coreOn && f x && s.stalls x && !x.stalled
  let any := s.bench.queue.any hit
  raiseIf any bBench 2 { s with bench := { s.bench with
    queue := s.bench.queue.map fun x => if hit x then { x with stalled := true } else x } }

/-- BDEM_UPDATE: P_DEM and N (R234), of the voltage last published at a frame end, 0 before the first: the rule names no reading
of V_B (log entry 95). -/
def opBdem (s : State) : State :=
  if !s.coreOn then s
  else
    let c := s.reg 0x0B 0x2A
    let pfs : Int := max 1 (fld c 16 16)
    let p := clampI (-pfs) pfs (roundFree (s.bench.net * 1000 + fld c 0 16 * (s.benchI 0x22 - s.bench.vbUse.getD 0)) 1000000)
    { s with bench := { s.bench with pdem := p, n := (1000 + roundFree (800 * p) pfs).toNat } }

/-- The host reservation is queued. -/
def State.resQueued (s : State) : Bool := s.bench.queue.any fun x => decide (x.idx.val = 32)

/-- HRES_CTRL.REQ (R227). -/
def hresReq (s : State) : State :=
  if s.resQueued || s.bench.granted then s
  else
    let s : State := { s with bench := { s.bench with tick := s.bench.tick + 1 } }
    (request { idx := 32, prio := s.regF 0x0B 0x2E 0 3, est := s.benchI 0x2D, arrived := s.bench.tick, waited := 0
               stalled := false, replaces := false } s).2

/-- HRES_CTRL.CANCEL (R227). -/
def hresCancel (s : State) : State :=
  noteNet (withdraw 32 { s with bench := { s.bench with granted := false } })

/-- A write of HRES_CTRL, PRIO stored: REQ, then CANCEL (log entry 32). -/
def hresCtrl (v : Word) (s : State) : State :=
  let s := if bit v 8 then hresReq s else s
  if bit v 9 then hresCancel s else s

end Sys2Proof.Machine
end

