-- ==== Sys2Proof/Machine/ClockOps.lean ====
section
/-! DEFINITION. SYNC tracking, the PLL and crystals, the calendar (04_measurement_and_leaf.md, R115 to R119;
12_power_and_clock.md, R372 to R381). -/

namespace Sys2Proof.Machine

/-! ### SYNC -/

/-- SYNC edges are tracked: SYNCEN = 1, in RUN or NAP, with the channel refreshed (R116, R117, R372, R374). -/
def State.tracks (s : State) : Bool := bit (s.reg 0x01 0x01) 0 && s.coreOn && !s.link.sync.lost

/-- The offset of an edge as SYNCSTAT shows it, ns. -/
def syncOffset (ns : Int) : BitVec 16 := BitVec.ofInt 16 (clampI (-32768) 32767 ns)

/-- SYNC rises; the level it has from there on no command brings (log entry 3). -/
def noteSyncLevel (s : State) : State :=
  if s.link.sync.lost then s
  else
    let (b, s) := freeBit s
    { s with link := { s.link with sync := { s.link.sync with sent := b } } }

/-- A PLL trim within ±500 ppm, in 0.01 ppm (R115, R372). -/
def pllTrim (trim : Int) : Word := ofI (clampI (-50000) 50000 trim)

/-- The PLL takes a trim; the present frame remembers the one before it (R119). -/
def setTrim (w : Word) (s : State) : State := { s with clk := { s.clk with pllTrim := w, was := s.clk.was ++ [s.clk.pllTrim] } }

/-- SYNC_EDGE: the PLL takes the trim with which it follows the edge, or pulls in towards it; an ignored edge trims nothing
(R115, R116). -/
def opSyncEdge (ns trim : Int) (s : State) : State :=
  let s := noteSyncLevel s
  if !s.tracks then s
  else
    let follow (s : State) : State := setTrim (pllTrim trim) { s with clk := { s.clk with slips := 0 } }
    let s : State := { s with clk := { s.clk with offset := syncOffset ns } }
    if !s.clk.aligned then follow { s with clk := { s.clk with acquiring := true, freeRun := false } }
    else if ns.natAbs ≤ 2000 then follow s
    else
      let s := raiseBit bClk 3 s
      if s.clk.slips + 1 < 3 then { s with clk := { s.clk with slips := s.clk.slips + 1 } }
      else follow { s with clk := { s.clk with aligned := false, acquiring := true } }

/-- SYNC_ACQUIRED (R116, R381): the trim in force is within ±500 ppm (R372). -/
def opSyncAcquired (ns trim : Int) (s : State) : State :=
  if !s.tracks || !s.clk.acquiring then s
  else
    raiseBit bClk 2 (setTrim (pllTrim trim) { s with clk := { s.clk with
      aligned := true, acquiring := false, freeRun := false, pllOff := false, slips := 0, offset := syncOffset ns } })

/-- Free-running with the last trim, and SYNCLOST (R117). -/
def freeRuns (s : State) : State :=
  raiseBit bClk 1 { s with clk := { s.clk with aligned := false, acquiring := false, freeRun := true, slips := 0 } }

/-- SYNC_LOST: four expected edges have been missed (R117). -/
def opSyncLost (s : State) : State :=
  if !bit (s.reg 0x01 0x01) 0 || !s.coreOn || s.clk.freeRun then s else freeRuns s

/-- The refresh of SYNC is lost (R117). -/
def syncRefreshLost (s : State) : State := if bit (s.reg 0x01 0x01) 0 && s.coreOn then freeRuns s else s

/-- CTRL.SYNCEN has been written (R372): `was` is the bit before the write. -/
def syncenWritten (was : Bool) (s : State) : State :=
  let on := bit (s.reg 0x01 0x01) 0
  if on && !was then { s with clk := { s.clk with freeRun := false, pllOff := false, acquiring := false, slips := 0 } }
  else if !on && was then setTrim 0 { s with clk := { s.clk with aligned := false, acquiring := false, slips := 0 } }
  else s

/-! ### PLL and crystals (R373, R377) -/

/-- A CLK error: its bit and report; the manual gives CLK.ERR_CAP.DETAIL no layout. -/
def clkError (bitNo : Nat) (l : Line) (c : FClass) (s : State) : State :=
  blockErrorFree bClk l c none .none (bitNo + 1) (raiseBit bClk bitNo s)

def opPllUnlock (s : State) : State :=
  if s.clk.pllUnlock || !s.coreOn then s
  else clkError 8 lPll .contained { s with clk := { s.clk with pllUnlock := true } }

def opPllRelock (s : State) : State := { s with clk := { s.clk with pllUnlock := false } }

/-- XTALFAIL: the 25 MHz crystal runs in every state but SLEEP and OFF (R358, R373). -/
def opXtalFail (s : State) : State :=
  if s.clk.xtalFail || decide (s.pwr.state = .sleep ∨ s.pwr.state = .off) then s
  else clkError 7 lClock .fatal { s with clk := { s.clk with xtalFail := true } }

/-- VBAKLOW: VBAK measures below 1.8 V while VDDIO is present, or no longer does (R377, R381, R478; log entry 52). -/
def opVbakLow (low : Bool) (s : State) : State :=
  if s.pwr.state = .off then s
  else
    let s : State := { s with clk := { s.clk with vbakLow := low } }
    if low then clkError 4 lRtc .corrected s else s

def opRtcStop (s : State) : State :=
  if s.clk.rtcStop then s else clkError 6 lRtc .contained { s with clk := { s.clk with rtcStop := true } }

def opRtcReturn (s : State) : State := { s with clk := { s.clk with rtcStop := false } }

/-! ### Calendar (R375 to R379) -/

/-- The calendar in fraction units of 1/65,536 s. -/
def State.cal (s : State) : Nat := s.clk.sec.toNat * 65536 + s.clk.frac.toNat

/-- ALARM in fraction units. -/
def State.alarmAt (s : State) : Nat :=
  let h := s.reg 0x01 0x0B
  (fld h 16 16 * 2 ^ 32 + (s.reg 0x01 0x0A).toNat) * 65536 + fld h 0 16

/-- Fraction units that p periods of the window bring, the adjustments of TRIM spread evenly (R375; log entry 33). -/
def calUnits (trim : Int) (p : Nat) : Int := 2 * ((p : Int) + Int.fdiv (p * trim) (2 ^ 20))

/-- TRIM. -/
def State.calTrim (s : State) : Int := sfld (s.reg 0x01 0x0C) 0 10

/-- Interval of the tick in fraction units (R379). -/
def State.tickUnits (s : State) : Nat := 2 ^ (s.regF 0x01 0x01 4 4 + 10)

/-- A tick (R379, R370). -/
def tick (s : State) : State :=
  let wake := bit (s.reg 0x01 0x01) 1
  let s : State := if s.asleep then { s with clk := { s.clk with tickHeld := true } } else irqPulse 80 s
  if wake then wakeBy 7 0 s else s

/-- The calendar counts n periods of the crystal: alarm and ticks fire as they are passed (R375, R378, R379). -/
def countCalendar (n : Nat) (s : State) : State :=
  if s.clk.rtcStop ∨ n = 0 then s
  else
    let old := s.cal
    let new := old + (calUnits s.calTrim (s.clk.win + n) - calUnits s.calTrim s.clk.win).toNat
    let s : State := { s with clk := { s.clk with
      sec := BitVec.ofNat 48 (new / 65536), frac := BitVec.ofNat 16 new, win := (s.clk.win + n) % 2 ^ 20 } }
    let s := if old / s.tickUnits < new / s.tickUnits then tick s else s
    if bit (s.reg 0x01 0x01) 2 && decide (old < s.alarmAt) && decide (s.alarmAt ≤ new) then
      wakeBy 6 0 (raiseBit bClk 0 s)
    else s

/-- The TIME words of one frame: both load, one alone sets SETREJ (R376). -/
def timeLoad (lo hi : Option Word) (s : State) : State :=
  match lo, hi with
  | some l, some h =>
    let t : State := { s with clk := { s.clk with
      sec := (h.extractLsb' 16 16) ++ l, frac := (h.extractLsb' 0 16) &&& 0xFFFE, win := 0, notLoaded := false } }
    t.modCom bClk fun c => { c with status := c.status &&& ~~~ (bitW 5) }
  | none, none => s
  | _, _ => raiseBit bClk 9 s

end Sys2Proof.Machine
end

