-- ==== Sys2Proof/Machine/PowerOps.lean ====
section
/-! DEFINITION. Domains, the choice of a power state, entry, wake and dwell (12_power_and_clock.md, R358 to R371). -/

namespace Sys2Proof.Machine

/-! ### Domains (R358 to R360) -/

/-- DOMSTAT follows, each switch setting DOMCHG. -/
def settleDomains (s : State) : State :=
  if s.domains = s.pwr.dom then s else raiseBit bPwr 0 { s with pwr := { s.pwr with dom := s.domains } }

/-- DOMAIN_FAIL (R360). -/
def opDomainFail (d : Fin 8) (s : State) : State :=
  if s.pwr.failed.getLsbD d.val then s
  else blockErrorFree bPwr lSupply .contained none .none (d.val + 1)
    (raiseBit bPwr 1 { s with pwr := { s.pwr with failed := s.pwr.failed ||| BitVec.ofNat 8 (2 ^ d.val) } })

/-! ### Limits (R364) -/

/-- A channel limits the device to RUN (HOLD bit 3). -/
def State.holdsRun (s : State) (n : Chan) : Bool :=
  let c := s.cell n
  c.ps.ramp || decide (c.seq.state = .armed) ||
    (decide (c.seq.state = .run) && !s.member n && (match c.seq.step with
      | some st => !st.sleeps
      | none => true))

/-- A channel limits the device to NAP (HOLD bit 6). -/
def State.holdsNap (s : State) (n : Chan) : Bool :=
  let c := s.cell n
  decide (c.seq.state = .safe) || decide (c.seq.state = .fault) || (decide (c.seq.state = .run) &&
    (match c.seq.step with
      | some st => decide (st.typ = 9) || (decide (st.typ = 12) && decide (st.waitSrc = 4) && !s.waitDone n st)
      | none => false))

/-- MAXST. -/
def State.maxSt (s : State) : Nat := s.regF 0x02 0x01 1 2

/-- The limits of R364 that hold, HOLD bits 0 to 7. `busy`: a bus transaction is in progress. -/
def State.limits (s : State) (busy : Bool) : BitVec 9 :=
  let b (c : Bool) (i : Nat) : BitVec 9 := if c then BitVec.ofNat 9 (2 ^ i) else 0
  b (!bit (s.reg 0x02 0x01) 0 || !s.ready) 0 ||| b (s.link.hcsLow || busy || s.fix.running.isSome || s.mgmt.stretch) 1
    ||| b (s.nvm.busy || s.sec.nvpend) 2 ||| b (allChans.any s.holdsRun) 3 ||| b (s.visiting || s.pwr.leafWake) 4
    ||| b s.pwr.dwell 5 ||| b (s.fcol.failStop || allChans.any s.holdsNap) 6 ||| b (decide (s.maxSt < 3)) 7

/-- The deepest state a set of limits allows; a failed domain holds RUN (R360). -/
def State.deepest (s : State) (h : BitVec 9) : Nat :=
  if h &&& 0x3F ≠ 0 ∨ s.pwr.failed ≠ 0 then 0
  else min s.maxSt (if h.getLsbD 6 then 1 else 3)

/-! ### Events (R365) -/

/-- Times to the events of a running step, ms. -/
def State.stepEvents (s : State) (n : Chan) : List Nat :=
  match s.activeStep n with
  | none => []
  | some st =>
    if st.typ ≠ 0 ∧ st.typ ≠ 9 ∧ st.typ ≠ 12 then []
    else
      let q := (s.cell n).seq
      let point := if st.typ ≠ 12 ∧ st.interval ≠ 0 then [st.interval - q.stepT % st.interval] else []
      let terms := (List.finRange 4).filterMap fun j =>
        let w := st.w[4 + j.val]
        let thr := threshold 4 st.pool[j.val]
        if tQty w = 4 ∧ (q.stepT : Int) < thr then some (thr - q.stepT).toNat else none
      let r := (s.chReg n.val 0x2C).toNat
      point ++ terms ++ (if r = 0 then [] else [1000 * r - q.loadT])

/-- Time to the LEAF event, ms. -/
def State.leafEvent (s : State) : Option Nat :=
  let on := chansOf (s.reg 0x0C 0x09)
  if !bit (s.reg 0x0C 0x01) 0 ∨ on = [] then none
  else
    let age := on.foldl (fun m n => max m s.leaf.ages[n.val]) 0
    some (1000 * (max 100 (s.regF 0x0C 0x0A 0 16) - s.regF 0x02 0x11 0 16) - age)

/-- Calendar units to µs, rounded down. -/
def unitsUs (u : Nat) : Nat := u * 1000000 / 65536

/-- Times to every event but the LEAF's, µs. -/
def State.otherEvents (s : State) : List Nat :=
  let c := s.reg 0x01 0x01
  (if bit c 2 ∧ s.cal < s.alarmAt then [unitsUs (s.alarmAt - s.cal)] else [])
    ++ (if bit c 1 then [unitsUs (s.tickUnits - s.cal % s.tickUnits)] else [])
    ++ (allChans.flatMap s.stepEvents).map (· * 1000)
    ++ (if s.pwr.nextEvent = 0 then [] else [s.pwr.nextEvent.toNat * 1000])

/-- The earliest of some times. -/
def earliest : List Nat → Option Nat
  | [] => none
  | x :: xs => some (xs.foldl min x)

/-! ### Choice (R366) -/

/-- Entry, exit and break-even of a state together, µs (R361). -/
def stateCost (k : Nat) : Nat :=
  match k with
  | 1 => 130
  | 2 => 2250
  | _ => 43000

/-- The deepest state from k down that fits before the earliest event; 0: none. -/
def State.fitState (s : State) (ev : Option Nat) : Nat → Nat
  | 0 => 0
  | k + 1 => match ev with
    | none => k + 1
    | some t => if stateCost (k + 1) + s.regF 0x02 0x0A 0 24 < t then k + 1 else s.fitState ev k

def pstate (k : Nat) : PState :=
  match k with
  | 0 => .run
  | 1 => .nap
  | 2 => .doze
  | _ => .sleep

/-- The choice at a frame end in RUN or NAP (R364 to R369). A visit alone delays the entry it would allow. In NAP with no state
that fits the exit to RUN starts, by the event timer (R366). -/
def choosePower (busy : Bool) (s : State) : State :=
  if s.asleep || s.pwr.entering || s.pwr.waking.isSome || !s.ready then s
  else
    let h := s.limits busy
    let leaf := s.leafEvent.map (· * 1000)
    let ev := earliest (s.otherEvents ++ leaf.toList)
    let noVisit := if s.pwr.leafWake then h else h &&& ~~~ (0x10 : BitVec 9)
    let most := s.deepest noVisit
    let k := s.fitState ev most
    let inNap := decide (s.pwr.state = .nap)
    let hold := if decide (most ≠ 0) && decide (k = 0) then h ||| 0x100 else h
    let s : State := { s with pwr := { s.pwr with
      hold := hold, chosen := pstate k, leafEv := leaf.isSome && decide (leaf = ev)
      nextEv := match ev with
        | none => 0xFFFFFFFF#32
        | some t => BitVec.ofNat 32 (min (t / 1000) 0xFFFFFFFF) } }
    if inNap && decide (s.deepest h = 0) then wakeBy 10 0 s
    else if inNap && decide (k = 0) then wakeBy 9 0 s
    else if decide (pstate k ≠ s.pwr.state) && decide (k ≠ 0) && !s.visiting then
      { s with pwr := { s.pwr with entering := true } }
    else s

/-! ### Entry and wake -/

/-- What leaving RUN does to running steps: their qualification restarts (R159). -/
def leaveRun (s : State) : State := forChans allChans (fun n s => s.modSeq n clearCounts) s

/-- The paths that the state entered no longer drives stop: outside RUN the gate drivers are disabled, and a half's domain that is
off drives no trickle stage (R358). A handover of a TRICKLE step that this cuts ends on the trickle stage. -/
def stopUndriven (s : State) : State :=
  forChans allChans (fun n s =>
    if !s.driveOn n then stopPaths n s
    else if !(s.cell n).ps.switching then s
    else match s.activeStep n with
      | some st => applySetpoint n st (forChans (s.gangOf n) stopHalf s)
      | none => stopHalf n s) s

/-- The outputs keep their levels through DOZE and SLEEP (R363). -/
def holdOutputs (s : State) : State :=
  { s with io := { s.io with pins := Vector.ofFn fun k => { s.io.pins[k.val] with held := s.sourceOut k } } }

/-- POWER_STATE_ENTERED (R361, R363, R374, R295, R49). -/
def opEntered (s : State) : State :=
  if !s.pwr.entering then s
  else
    let deep := decide (s.pwr.chosen = .doze ∨ s.pwr.chosen = .sleep)
    let int := s.intN
    let pend := (List.finRange 128).foldl (fun w i => if s.pend i then w ||| BitVec.ofNat 128 1 <<< i.val else w) 0
    let s := if s.pwr.state = .run then leaveRun s else s
    let s := stopUndriven { s with pwr := { s.pwr with state := s.pwr.chosen, entering := false, napFrames := 0 } }
    if deep then
      closeAllLocks { holdOutputs s with
        irq := { s.irq with held := int, pendHeld := pend }
        clk := { s.clk with aligned := false, acquiring := false, pllOff := true, slips := 0 } }
    else s

/-- ENTRY_ABORT (R367). -/
def opAbort (cause : Fin 16) (pin : Fin 8) (s : State) : State :=
  if s.pwr.entering then wakeBy (BitVec.ofNat 4 cause.val) (BitVec.ofNat 3 pin.val) s else s

/-- EVENT_TIMER_WAKE (R366). -/
def opTimerWake (s : State) : State := wakeBy 9 0 s

/-- NEXT_EVENT_EXPIRE: PWR.NEXT_EVENT has counted down to 0. In RUN and NAP the frames count it (`countNextEvent`). -/
def opNextExpire (s : State) : State :=
  if s.coreOn && decide (1 < s.pwr.nextEvent.toNat) then s else { s with pwr := { s.pwr with nextEvent := 0 } }

/-- PWR.NEXT_EVENT counts ms. -/
def countNextEvent (ms : Nat) (s : State) : State :=
  { s with pwr := { s.pwr with nextEvent := BitVec.ofNat 32 (s.pwr.nextEvent.toNat - ms) } }

/-- A WAIT step waits on a pin or level (R158). -/
def State.waitsOn (s : State) (f : Step → Bool) : Bool :=
  allChans.any fun n => match s.activeStep n with
    | some st => decide (st.typ = 12) && f st
    | none => false

/-- Pin k is a wake source of R370. -/
def State.pinWakes (s : State) (k : Fin 8) : Bool :=
  let fx := s.reg 0x07 0x08
  !s.isOut k && (bit (s.reg 0x02 0x0E) k.val || (bit fx 4 && decide (fld fx 0 3 = k.val))
    || s.waitsOn fun st => decide (st.waitSrc = 3) && decide (st.waitPin = k))

/-- IO24_WAKE: in DOZE and SLEEP a raw level that differs (R370). -/
def opIoWake (k : Fin 8) (s : State) : State :=
  if s.asleep && s.pinWakes k && s.works dIo24 then wakeBy 3 (BitVec.ofNat 3 k.val) s else s

/-- One instant of 10 µs of pin k: a change of the filtered state reaches the WAIT steps (R158), and in NAP it wakes (R370). -/
def opInstant (k : Fin 8) (s : State) (hi : Bool) : State :=
  let t := instantPin k hi s
  if t.io.pins[k.val].filt = s.io.pins[k.val].filt then t
  else
    let t := forChans allChans noteWait t
    if s.pwr.state = .nap ∧ s.pinWakes k then wakeBy 3 (BitVec.ofNat 3 k.val) t else t

/-- The comparator levels of pin k, one each 10 µs (R384). -/
def opIoEdge (k : Fin 8) (raw : List Bool) (s : State) : State := if s.samples then raw.foldl (opInstant k) s else s

/-- HGP0 or HGP1 is a wake source (R370). -/
def State.hgpWakes (s : State) (one : Bool) : Bool :=
  bit (s.reg 0x02 0x0E) (if one then 9 else 8) || s.waitsOn fun st => decide (st.waitSrc = if one then 2 else 1)

/-- A saturating count of ms. -/
def satMs (x : Nat) : Nat := min x 0xFFFFFFFF

/-- Time out of RUN reaches STEP_T, the limit of R171 and the ages of R131; no wait of a queued request, of which R225 says nothing
here (log entry 95). -/
def elapse (ms : Nat) (s : State) : State :=
  let s := forChans allChans (fun n s =>
    match s.activeStep n with
    | some _ => s.modSeq n fun q => { q with stepT := satMs (q.stepT + ms), loadT := q.loadT + ms }
    | none => s) s
  countNextEvent ms { s with leaf := { s.leaf with ages := s.leaf.ages.map (· + ms) } }

/-- The earliest event of the last choice has passed after `ms` (R366). -/
def State.eventPassed (s : State) (ms : Nat) : Bool := decide (s.pwr.nextEv ≠ 0xFFFFFFFF) && decide (s.pwr.nextEv.toNat < ms)

/-- WAKE_DONE: the first cycle in RUN (R361, R366 to R370, R379); `late`: the event has passed within the last ms. -/
def opWakeDone (ms periods : Nat) (late : Bool) (s : State) : State :=
  match s.pwr.waking with
  | none => s
  | some (code, _) =>
    let deep := s.asleep
    let late := late || s.eventPassed ms
    let s := elapse ms (countCalendar periods s)
    let held := s.clk.tickHeld
    let s : State := { s with
      pwr := { s.pwr with
        state := .run, chosen := .run, waking := none, deepAbort := false, dwell := deep, settle := 50, inRun := 0
        leafWake := s.pwr.leafWake || (decide (code = 9) && s.pwr.leafEv) }
      clk := { s.clk with tickHeld := false }
      mgmt := { s.mgmt with stretch := false } }
    let s := if held then irqPulse 80 s else s
    raiseIf late bPwr 3 (takeHeld (irqPulse 92 s))

/-- The dwell of R368 has lasted PWR.DWELL frames, at least 55. -/
def State.dwellOver (s : State) : Bool := decide (max 55 (s.regF 0x02 0x0B 0 16) ≤ s.pwr.inRun)

/-- DWELL_END (R368). -/
def opDwellEnd (s : State) : State := if s.dwellOver then { s with pwr := { s.pwr with dwell := false } } else s

end Sys2Proof.Machine
end

