-- ==== Sys2Proof/Machine/Streams.lean ====
section
/-! DEFINITION. The voltage and current streams of a channel: corrected samples, blends, stand-ins, the path in force at each
sample, gang totals (04_measurement_and_leaf.md, R102, R103, R106, R120, R123, R125, R129, R134; 03_power_stage.md, R77, R87). -/

namespace Sys2Proof.Machine

/-! ### One sample (R103, R120, R129) -/

/-- A raw sample corrected (R120), in counts of 0.01: `ot` in raw counts. -/
def corrected (r ot gt ofs gain : Int) : Int :=
  roundFree (((r - ot) * (10 ^ 7 + gt) - ofs * 10 ^ 7) * gain) (10 ^ 7 * 2 ^ 30)

/-- The three sampled streams of a channel. -/
inductive Stream where
  | v | h | m
  deriving DecidableEq, Repr

/-- Conversion range in counts (R103). -/
def Stream.clamp (k : Stream) (x : Int) : Int :=
  match k with
  | .v => clampI (-55000000) 550000000 x
  | .h => clampI (-4400000000) 4400000000 x
  | .m => clampI (-440000000) 440000000 x

/-- The component of a triple that belongs to a stream. -/
def Stream.get {α : Type} (k : Stream) (t : α × α × α) : α :=
  match k with
  | .v => t.1
  | .h => t.2.1
  | .m => t.2.2

/-- A triple from the three streams. -/
def Stream.all {α : Type} (f : Stream → α) : α × α × α := (f .v, f .h, f .m)

/-- ε of R129 in counts. -/
def Stream.eps : Stream → Rat
  | .v => 1
  | _ => 4

def Trims.get (t : Trims) (k : Stream) : Trim := k.get (t.v, t.h, t.m)

/-- Raw counts of one unit of OT. -/
def Stream.unit : Stream → Int
  | .h => 10
  | _ => 1

/-- OFS and GAIN of a stream in the drawer at page p. -/
def State.coefs (s : State) (p : Nat) (k : Stream) : Int × Int :=
  let o := k.get (0x30, 0x32, 0x34)
  ((s.reg p (o + 1)).toInt, (s.reg p o).toNat)

/-- A raw sample under trims t and the coefficients c, within its conversion range. -/
def Stream.value (k : Stream) (t : Trim) (c : Int × Int) (r : Int) : Int :=
  k.clamp (corrected r (t.ot.toInt * k.unit) t.gt.toInt c.1 c.2)

/-- The raw counts of a stream. -/
def rawCounts (x : RawSample) : Int × Int × Int := (x.v, x.ih, x.im)
def leafCounts (x : LeafSample) : Int × Int × Int := (x.lv, x.lih, x.lim)

/-- A rational rounded to the nearest count. -/
def roundRat (x : Rat) : Int := roundFree x.num x.den

/-- The blend of a stream in one sample: the output and the new α (R129). -/
def blendSample (k : Stream) (yo yn : Int) (a : Rat) : Int × Rat :=
  let d := yn - yo
  if d = 0 then (yn, 1)
  else
    let a := a + min (1 - a) (k.eps / (d.natAbs : Rat))
    (roundRat ((yo : Rat) + a * (d : Rat)), a)

/-- One sample of one stream under the trims `old` and through a blend from them towards `target`: the output and α. -/
def blendOne (c : Int × Int) (k : Stream) (r : Int) (old : Trims) (target : Option Trims) (a : Rat) : Int × Rat :=
  let yo := k.value (old.get k) c r
  match target with
  | none => (yo, a)
  | some t => blendSample k yo (k.value (t.get k) c r) a

/-! ### Stand-ins (R123, R125, R134) -/

/-- A stand-in from a LEAF value (R125). -/
def Fit.at (f : Fit) (y : Int) : Int := roundRat ((y : Rat) + f.a + f.b * ((y : Rat) - f.m))

/-- y_L of a stream for channel n: the LEAF's own trims, channel n's coefficients (R123). -/
def State.leafY (s : State) (n : Chan) (k : Stream) (x : LeafSample) : Int :=
  k.value (s.leaf.trims[32].get k) (s.coefs (0x20 + n.val) k) (k.get (leafCounts x))

/-- The stand-in values for channel n of one LEAF sample. -/
def State.standIn (s : State) (n : Chan) (x : LeafSample) : Int × Int × Int :=
  Stream.all fun k => (k.get s.leaf.fits).at (s.leafY n k x)

/-- The trickle sense, which has no trims (R120). -/
def State.trickleSense (s : State) (n : Chan) (r : Int) : Int :=
  clampI (-5500000) 5500000
    (corrected r 0 0 (s.chReg n.val 0x37).toInt (s.chReg n.val 0x36).toNat)

/-- The channel's conversions are replaced by the stand-in. -/
def State.standsIn (s : State) (n : Chan) : Bool := s.leaf.standin && decide (s.leaf.ch.toNat = n.val)

/-- The trims a blend of channel n moves from, else those in force (R129). -/
def State.oldTrims (s : State) (n : Chan) : Trims :=
  if s.leaf.blend[n.val].isSome then s.leaf.old[n.val] else s.leaf.trims[n.val]

/-! ### The path at each sample (R77, R102, R106) -/

/-- The conversion that sample j of the present frame publishes, and whether both paths carried current then. Where no path
conducts it is the conversion of the range in force (R102). -/
def State.pathAt (s : State) (n : Chan) (j : Nat) : BitVec 2 × Bool :=
  let p := (s.cell n).ps
  match p.was.find? fun w => decide (j < w.1) with
  | some w => w.2
  | none =>
    if !p.conducts then (BitVec.ofNat 2 (s.range n), false)
    else (p.src, p.switching && (p.trickleOn || (match p.enable with
      | some a => decide (a ≤ j)
      | none => false)))

/-- The current that enters the stream: of the closing conversion, or of both paths (R77, R106). -/
def pathCurrent (p : BitVec 2 × Bool) (h m t : Int) : Int :=
  let shunt := if p.1 = 0 then h else m
  if p.2 then shunt + t else if p.1 = 2 then t else shunt

/-- What the samples of a frame so far give for one channel: the streams, the HIGH and MID values beside them, α, and the last
stand-in. -/
structure Taken where
  out : List (Int × Int)
  hm : List (Int × Int)
  alpha : Rat × Rat × Rat
  last : Int × Int × Int
  deriving DecidableEq, Repr

/-- One sample instant. -/
def takeSample (s : State) (n : Chan) (x : RawSample) (l : Option LeafSample) (a : Taken) : Taken :=
  let j := a.out.length
  let t := s.trickleSense n x.it
  let put (y : Int × Int × Int) (a : Taken) : Taken :=
    { a with out := a.out ++ [(y.1, pathCurrent (s.pathAt n j) y.2.1 y.2.2 t)], hm := a.hm ++ [y.2] }
  let waits := match s.leaf.resume with
    | some (c, k) => decide (c = n) && decide (j < k)
    | none => false
  if s.standsIn n then
    let y := match l with
      | some l => if s.leaf.gapFill && decide (s.leaf.gapAt ≤ j) then a.last else s.standIn n l
      | none => a.last
    put y { a with last := y }
  else if waits then put a.last a
  else
    let y := Stream.all fun k =>
      blendOne (s.coefs (0x20 + n.val) k) k (k.get (rawCounts x)) (s.oldTrims n) s.leaf.blend[n.val] (k.get a.alpha)
    put (Stream.all fun k => (k.get y).1) { a with alpha := Stream.all fun k => (k.get y).2 }

/-- Sample after sample, with the LEAF's at the same instants. -/
def takeSamples (s : State) (n : Chan) : List RawSample → List LeafSample → Taken → Taken
  | [], _, a => a
  | x :: xs, ls, a => takeSamples s n xs ls.tail (takeSample s n x ls.head? a)

/-- The present frame of channel n so far. -/
def State.taken (s : State) (n : Chan) : Taken :=
  takeSamples s n (s.cell n).meas.got s.leaf.got ⟨[], [], s.leaf.alpha[n.val], s.leaf.lastS⟩

/-- α of the blend of channel n after the samples brought so far (R129). -/
def State.alphaNow (s : State) (n : Chan) : Rat × Rat × Rat :=
  if s.leaf.alpha[n.val] = (1, 1, 1) then (1, 1, 1) else (s.taken n).alpha

/-! ### Gangs (R87, R185) -/

/-- The sum of the members' streams with the leader's voltage. -/
def gangStream (lead : List (Int × Int)) (members : List (List (Int × Int))) : List (Int × Int) :=
  members.foldl (fun a m => (a.zip m).map fun p => (p.1.1, p.1.2 + p.2.2)) lead

/-- The leader's stream is the gang total: outside the TRICKLE range, and while or where a phase carried current. -/
def State.totals (s : State) (n : Chan) : Bool :=
  s.formed n && decide (s.leader n = n) && (decide (s.range n ≠ 2) ||
    (s.gangOf n).any fun k =>
      let p := (s.cell k).ps
      decide (k ≠ n) && (p.conducts || p.ramp || p.flowed || !p.was.isEmpty))

/-- The streams of channel n from what each channel took: a leader's with its members' currents. -/
def State.streamFrom (s : State) (n : Chan) (f : Chan → Taken) : List (Int × Int) :=
  if s.totals n then gangStream (f n).out (((s.gangOf n).filter fun k => decide (k ≠ n)).map fun k => (f k).out)
  else (f n).out

/-- The streams of channel n in the present frame so far. -/
def State.streamNow (s : State) (n : Chan) : List (Int × Int) := s.streamFrom n s.taken

/-- The last `k` entries of a list. -/
def lastOf {α : Type} (k : Nat) (l : List α) : List α := l.drop (l.length - k)

/-- The last 500 samples of the streams at the end of list `now`; what the chains have not brought since reset is 0 (log entry
88). -/
def State.recent (s : State) (n : Chan) (now : List (Int × Int)) : List (Int × Int) :=
  lastOf 500 (List.replicate 500 (0, 0) ++ (s.cell n).meas.hist ++ now)

/-- The mean of a list of numbers, to the nearest; the manual states none of an empty window. -/
def meanOf (l : List Int) : Int := if l = [] then Config.emptyMean 0 else roundFree l.sum l.length

/-- The means of V and I over a window of streams, at their resolution of 0.01. -/
def meanPair (l : List (Int × Int)) : Int × Int := (meanOf (l.map (·.1)), meanOf (l.map (·.2)))

end Sys2Proof.Machine
end

