-- ==== Sys2Proof/Machine/LeafOps.lean ====
section
/-! DEFINITION. The LEAF rotation: scheduler, visits, fits and trims, confirmation, blend, self slot
(04_measurement_and_leaf.md, R122 to R138). -/

namespace Sys2Proof.Machine

/-- The line on which a channel's measurement reports (R111). -/
def measLine (n : Chan) : Line := if n.val < 16 then lMeasA else lMeasB

/-- LEAF.ERR_CAP.DETAIL (R138). -/
def State.leafDetail (s : State) (code idx : Nat) : Nat := code * 2 ^ 20 + idx * 2 ^ 14 + s.frameBits 14

/-- A LEAF error on the LEAF line. -/
def leafErr (bitNo code idx : Nat) (c : FClass) (s : State) : State :=
  blockError bLeaf (s.leafDetail code idx) lLeaf c none .none code (raiseBit bLeaf bitNo s)

/-! ### Scheduler -/

/-- The blend of channel n runs: the new trims are not all in force (R129). -/
def State.blends (s : State) (n : Chan) : Bool :=
  match s.leaf.blend[n.val] with
  | some t => decide (s.leaf.alpha[n.val] ≠ (1, 1, 1)) && decide (s.leaf.trims[n.val] ≠ t)
  | none => false

/-- A channel is blocked (R130). An EIS or DCIR step counts as running from its load to its end, in the queue and paused too,
which the manual leaves open (log entry 92). -/
def State.leafBlocked (s : State) (n : Chan) : Bool :=
  let l := s.leader n
  (match s.step l with
    | some st => decide (st.typ = 7 ∨ st.typ = 8)
    | none => false)
    || bit s.cap.armed l.val || s.blends n

/-- The deferred channel that is no longer blocked and has the largest age; of several of one age, the lowest index, where
R130 names none (log entry 97). -/
def State.leafDeferred (s : State) : Option Chan :=
  allChans.foldl (fun best n =>
    if bit s.leaf.deferred n.val && !s.leafBlocked n then
      match best with
      | some b => if s.leaf.ages[b.val] < s.leaf.ages[n.val] then some n else best
      | none => some n
    else best) none

/-- The scheduler may start a visit or a self slot (R131, R132, R369). -/
def State.leafRuns (s : State) : Bool :=
  bit (s.reg 0x0C 0x01) 0 && s.ready && decide (s.pwr.state = .run) && !s.pwr.entering
    && (decide (s.pwr.chosen = .run) || s.pwr.leafWake)
    && decide (s.leaf.phase = .none ∨ s.leaf.phase = .stopped) && s.works dMeasA

/-- A visit of channel c begins. -/
def beginVisit (c : Chan) (s : State) : State :=
  { s with leaf := { s.leaf with phase := .overlapIn, inPhase := 0, ltime := s.reg 0x0C 0x08, sums := (.zero, .zero, .zero)
                                 ch := BitVec.ofNat 6 c.val, time := 0, fresh := none, standin := false, cut := false
                                 failed := false, leaving := none, gapFill := false } }

/-- The scheduler until it starts a visit or reaches the self slot; `fuel` bounds the channels it passes. -/
def schedule : Nat → State → State
  | 0, s => s
  | fuel + 1, s =>
    match s.leafDeferred with
    | some c => beginVisit c s
    | none =>
      if h : s.leaf.nextN < 32 then
        let c : Chan := ⟨s.leaf.nextN, h⟩
        let s : State := { s with leaf := { s.leaf with nextN := s.leaf.nextN + 1 } }
        if !bit (s.reg 0x0C 0x09) c.val then schedule fuel s
        else if s.leafBlocked c then schedule fuel (leafDefer c.val s)
        else beginVisit c s
      else s

/-- VISIT_START. -/
def opVisitStart (s : State) : State := if s.leafRuns && !s.leaf.selfFail then schedule 33 s else s

/-! ### Sums of a visit (R124 to R128, R135) -/

/-- The time of a phase in frames: a field of LTIME as taken at the visit boundary, 0 and 1 taken as 2 (R124). -/
def State.phaseMs (s : State) (lo : Nat) : Nat := 100 * max 2 (fld s.leaf.ltime lo 8)

/-- A pair y_ch, y_L of the overlap-in window. -/
def Sums.pair (x : Sums) (y l : Int) : Sums :=
  let d := y - l
  { x with n := x.n + 1, l := x.l + l, d := x.d + d, ll := x.ll + l * l, ld := x.ld + l * d
           lo := if x.n = 0 then l else min x.lo l, hi := if x.n = 0 then l else max x.hi l }

/-- A raw zero, or reference, sample. -/
def Sums.zeroAt (x : Sums) (r : Int) : Sums := { x with nz := x.nz + 1, z := x.z + r }
def Sums.refAt (x : Sums) (r : Int) : Sums := { x with nr := x.nr + 1, r := x.r + r }

/-- A difference of the confirmation window. -/
def Sums.confirmAt (x : Sums) (y l : Int) : Sums := { x with nc := x.nc + 1, c := x.c + (y - l).natAbs }

/-- The samples of the frame that ends reach the sums of the phase they belong to; the first 20 ms of each phase are discarded as
settling (R124), and those of each half of the self slot, for which R135 states no settling (log entry 91). -/
def sumLeaf (s : State) : State :=
  let l := s.leaf
  let go (xs : List (Int × Int × Int)) (f : Stream → Sums → Int → Sums) : State :=
    { s with leaf := { s.leaf with sums := Stream.all fun k => xs.foldl (fun a x => f k a (k.get x)) (k.get s.leaf.sums) } }
  let pairs (n : Chan) (t : Trims) (f : Sums → Int → Int → Sums) : State :=
    let xs := (s.cell n).meas.got.zip l.got
    { s with leaf := { s.leaf with sums := Stream.all fun k => xs.foldl (fun a x =>
        f a (k.value (t.get k) (s.coefs (0x20 + n.val) k) (k.get (rawCounts x.1))) (s.leafY n k x.2)) (k.get s.leaf.sums) } }
  match l.phase, s.visited with
  | .overlapIn, some n => if l.inPhase < 20 then s else pairs n l.trims[n.val] Sums.pair
  | .zero, some n => if l.inPhase < 20 then s else go ((s.cell n).meas.got.map rawCounts) fun _ => Sums.zeroAt
  | .reference, some n => if l.inPhase < 20 then s else go ((s.cell n).meas.got.map rawCounts) fun _ => Sums.refAt
  | .overlapOut, some n =>
    (match l.fresh with
      | some t => if l.inPhase < 20 ∨ l.standin then s else pairs n t Sums.confirmAt
      | none => s)
  | .selfSlot, _ =>
    let h := s.phaseMs 0 / 2
    if 20 ≤ l.inPhase ∧ l.inPhase < h then go (l.got.map leafCounts) fun _ => Sums.zeroAt
    else if h + 20 ≤ l.inPhase ∧ l.inPhase < 2 * h then go (l.got.map leafCounts) fun _ => Sums.refAt
    else s
  | _, _ => s

/-! ### Fit and trims -/

/-- The fit of one stream over the overlap-in window (R125); `range`: the conversion range in counts. -/
def fitOf (x : Sums) (range : Int) : Fit :=
  let n : Int := x.n
  let den := n * x.ll - x.l * x.l
  if x.n = 0 then ⟨Config.fitByZero 0, Config.fitByZero 1, Config.fitByZero 2⟩
  else
    let b : Rat := if (x.hi - x.lo) * 50 < range then 0
      else if den = 0 then Config.fitByZero x.ld else ((n * x.ld - x.l * x.d : Int) : Rat) / (den : Int)
    ⟨(x.d : Rat) / (n : Rat), b, (x.l : Rat) / (n : Rat)⟩

/-- An external reference value lies within its window of 2.0 V to 4.5 V (R136). -/
def refxWindow (v : Int) : Bool := decide (200000000 ≤ v) && decide (v ≤ 450000000)

/-- The reference value in 0.01 µV (R126, R136). -/
def State.leafRef (s : State) : Int :=
  let v := (s.reg 0x0C 0x11).toInt
  if bit (s.reg 0x0C 0x01) 1 && !s.leaf.refxBad && refxWindow v then v else (s.reg 0x40 0x39).toInt

/-- N of the three streams as fractions over 2³² (R126). -/
def State.refCounts (s : State) : Int × Int × Int :=
  (s.leafRef * 2 ^ 32, s.leafRef * (s.reg 0x40 0x3A).toNat * 4000, s.leafRef * (s.reg 0x40 0x3B).toNat * 4000)

/-- New OT (in units of `unit` counts) and GT of one stream from its zero and reference samples, as numbers (R126): no zero
samples leave both open, no reference samples or r = z the gain. -/
def newTrim (x : Sums) (nRef unit : Int) : Int × Int :=
  let den : Int := x.r * x.nz - x.z * x.nr
  -- 1 + GT × 10⁻⁷ = N × nz × nr / (2³² × den)
  let num := (nRef * x.nz * x.nr - 2 ^ 32 * den) * 10 ^ 7
  (if x.nz = 0 then Config.trimByZero 0 else roundFree x.z (x.nz * unit),
   if x.nz = 0 ∨ x.nr = 0 ∨ den = 0 then Config.trimByZero 1 else roundFree num (2 ^ 32 * den))

/-- A trim fits its field. -/
def trimFits (t : Int × Int) : Bool :=
  decide (-32768 ≤ t.1) && decide (t.1 ≤ 32767) && decide (-32768 ≤ t.2) && decide (t.2 ≤ 32767)

def trimOf (t : Int × Int) : Trim := ⟨BitVec.ofInt 16 t.2, BitVec.ofInt 16 t.1⟩

/-- The new trims of the three streams as numbers. -/
def State.newTrims (s : State) : (Int × Int) × (Int × Int) × (Int × Int) :=
  Stream.all fun k => newTrim (k.get s.leaf.sums) (k.get s.refCounts) k.unit

/-! ### A visit

A visit that is to leave at the next frame boundary goes on to no further phase (R133). -/

/-- The next phase of a visit begins. -/
def setPhase (p : VPhase) (s : State) : State := { s with leaf := { s.leaf with phase := p, inPhase := 0 } }

/-- SUBSTITUTION_START, after the overlap in. No stand-in of the visit is valid yet: the value a gap fill would repeat is open
(R134; log entry 3). -/
def opSubstitution (s : State) : State :=
  if s.leaf.phase ≠ .overlapIn ∨ s.leaf.leaving.isSome ∨ s.leaf.inPhase < s.phaseMs 24 then s
  else
    let u := s.leaf.sums
    let (ws, s) := freeWords 3 s
    let w (i : Nat) : Int := (ws.getD i 0).toInt
    setPhase .zero { s with leaf := { s.leaf with
      standin := true, lastS := (w 0, w 1, w 2)
      fits := (fitOf u.1 605000000, fitOf u.2.1 8800000000, fitOf u.2.2 880000000) } }

/-- REFERENCE_PHASE. -/
def opReference (s : State) : State :=
  if s.leaf.phase ≠ .zero ∨ s.leaf.leaving.isSome ∨ s.leaf.inPhase < s.phaseMs 16 then s else setPhase .reference s

/-- The visit fails: VFAIL and the channel's bit. -/
def visitFails (n : Chan) (s : State) : State :=
  raiseBit bLeaf 2 { s with leaf := { s.leaf with vfail := s.leaf.vfail ||| bitW n.val } }

/-- OVERLAP_OUT: new trims, or the visit fails (R126, R127). -/
def opOverlapOut (s : State) : State :=
  if s.leaf.phase ≠ .reference ∨ s.leaf.leaving.isSome ∨ s.leaf.inPhase < s.phaseMs 16 then s
  else
    let t := s.newTrims
    let ok := trimFits t.1 && trimFits t.2.1 && trimFits t.2.2
    let s := setPhase .overlapOut { s with leaf := { s.leaf with
      failed := !ok, fresh := if ok then some ⟨trimOf t.1, trimOf t.2.1, trimOf t.2.2⟩ else none } }
    match ok, s.visited with
    | false, some n =>
      report (measLine n) .contained (some n) .none 2
        (capErr bLeaf (BitVec.ofNat 23 (s.leafDetail 2 n.val)) (visitFails n s))
    | _, _ => s

/-- STANDIN_END, 2 ms after the reconnection: the channel's own samples resume; a visit that was broken off is over (R124, R133,
R134). A gap fill that began inside a frame ends inside one. -/
def opStandinEnd (x : Fresh) (s : State) : State :=
  let s := bring x s
  if s.leaf.phase = .overlapOut ∧ s.leaf.standin ∧ 2 ≤ s.leaf.inPhase then
    let s : State := { s with leaf := { s.leaf with
      resume := s.visited.map fun n => (n, if s.leaf.gapFill then s.gotN n else 0) } }
    if s.leaf.cut then leafIdle s else { s with leaf := { s.leaf with standin := false } }
  else s

/-- CONFIRM thresholds in counts: voltage, HIGH, MID. -/
def State.confirm (s : State) : Int × Int × Int :=
  let ci : Int := s.regF 0x0C 0x0B 0 16
  (10 * s.regF 0x0C 0x0B 16 16, 4000 * ci, 400 * ci)

/-- A confirmed visit (R128, R129). -/
def visitConfirmed (n : Chan) (s : State) : State :=
  { s with leaf := { s.leaf with
    ages := s.leaf.ages.set n.val 0, fails := s.leaf.fails.set n.val 0
    aged := s.leaf.aged &&& ~~~ bitW n.val, vfail := s.leaf.vfail &&& ~~~ bitW n.val
    blend := s.leaf.blend.set n.val s.leaf.fresh, old := s.leaf.old.set n.val s.leaf.trims[n.val]
    alpha := s.leaf.alpha.set n.val (0, 0, 0) } }

/-- An unconfirmed visit (R128). After the third in a row the count starts again; a visit that fails under R127 neither counts
nor breaks the row: the manual says neither (log entry 79). -/
def visitUnconfirmed (n : Chan) (s : State) : State :=
  let k := s.leaf.fails[n.val] + 1
  let s := visitFails n { s with leaf := { s.leaf with fails := s.leaf.fails.set n.val (if k = 3 then 0 else k) } }
  let r (l : Line) (c : FClass) (ch : Option Chan) : Report := ⟨l, c, ch, .none, .none, .background, false, 1, 0⟩
  reports ([r lLeaf .corrected none] ++ (if k = 3 then [r (measLine n) .contained (some n)] else []))
    (capErr bLeaf (BitVec.ofNat 23 (s.leafDetail 1 n.val)) s)

/-- The mean of |y_ch − y_L| over the confirmation window is within a threshold in counts; the manual states no mean of a window
without samples. -/
def Sums.within (x : Sums) (t : Int) : Bool :=
  if x.nc = 0 then decide (Config.emptyMean 1 ≤ t) else decide (x.c ≤ t * x.nc)

/-- VISIT_END, after the overlap out (R128). -/
def opVisitEnd (s : State) : State :=
  match s.visited with
  | none => s
  | some n =>
    if s.leaf.phase ≠ .overlapOut ∨ s.leaf.leaving.isSome ∨ s.leaf.standin ∨ s.leaf.inPhase < s.phaseMs 8 then s
    else
      let t := s.confirm
      let u := s.leaf.sums
      let ok := u.1.within t.1 && u.2.1.within t.2.1 && u.2.2.within t.2.2
      let s := leafServed s
      leafIdle (if s.leaf.failed then s else if ok then visitConfirmed n s else visitUnconfirmed n s)

/-- The TRIM words of the streams whose α has reached 1 take the new values. -/
def Trims.reached (t new : Trims) (a : Rat × Rat × Rat) : Trims :=
  ⟨if a.1 = 1 then new.v else t.v, if a.2.1 = 1 then new.h else t.h, if a.2.2 = 1 then new.m else t.m⟩

/-- The blend of channel n is forgotten. -/
def endBlend (n : Chan) (s : State) : State :=
  { s with leaf := { s.leaf with blend := s.leaf.blend.set n.val none, alpha := s.leaf.alpha.set n.val (0, 0, 0) } }

/-- BLEND_DONE: the TRIM words take the new trims where α has reached 1, in the sample in which it does (R129). The blend is
over when α stood at 1 before the present frame; the samples of the frame before it still need it. -/
def opBlendDone (n : Chan) (x : Fresh) (s : State) : State :=
  let s := bring x s
  match s.leaf.blend[n.val] with
  | none => s
  | some t =>
    let s : State := { s with leaf := { s.leaf with
      trims := s.leaf.trims.set n.val (s.leaf.trims[n.val].reached t (s.alphaNow n)) } }
    if s.leaf.alpha[n.val] = (1, 1, 1) then endBlend n s else s

/-- At a frame end a blend is over whose α has reached 1 and whose trims the TRIM words show. -/
def closeBlend (n : Chan) (s : State) : State :=
  if s.leaf.alpha[n.val] = (1, 1, 1) ∧ s.leaf.blend[n.val] = some s.leaf.trims[n.val] then endBlend n s else s

/-- LEAF_ERROR during a visit (R133, R134). While a gap fill runs the LEAF supplies nothing more that could fail. In the first 2 ms
of the overlap out, whose stand-in fails too, the LEAF leaves and the channel's own samples go in at once: the manual names no gap
fill there (log entry 95). -/
def opLeafError (x : Fresh) (s : State) : State :=
  let s := bring x s
  match s.visited with
  | none => s
  | some n =>
    if s.leaf.gapFill then s
    else if s.leaf.phase = .zero ∨ s.leaf.phase = .reference then
      let live := (s.cell (s.leader n)).seq.state.live
      let s := leafBroken s
      let s := setPhase .overlapOut { s with leaf := { s.leaf with
        fresh := none, cut := true, gapFill := true, gapAt := s.gotN n, leaving := none } }
      let s := if live then enterSafe n (hardStop n s) else s
      leafErr 4 4 n.val .contained s
    else leafIdle (leafBroken s)

/-! ### Self slot (R135 to R137) -/

/-- The scheduler passes the channels that remain of the rotation where none can be visited: a masked one at once, a blocked one
deferred (R130). -/
def passRest (s : State) : State :=
  let rest := allChans.filter fun c => decide (s.leaf.nextN ≤ c.val) && bit (s.reg 0x0C 0x09) c.val
  if s.leafDeferred.isNone && rest.all s.leafBlocked then
    let s := rest.foldl (fun s c => leafDefer c.val s) s
    { s with leaf := { s.leaf with nextN := 32 } }
  else s

/-- SELF_SLOT_START: after the last channel of the rotation, where no deferred channel goes first (R130), or while a self failure
stops the visits (R135). -/
def opSelfStart (s : State) : State :=
  if !s.leafRuns then s
  else
    let s := if s.leaf.selfFail then s else passRest s
    if s.leaf.selfFail || (decide (s.leaf.nextN = 32) && s.leafDeferred.isNone) then
      { s with leaf := { s.leaf with
        phase := .selfSlot, inPhase := 0, ltime := s.reg 0x0C 0x08, sums := (.zero, .zero, .zero), ch := 32, time := 0 } }
    else s

/-- The external reference is out of its window (R136). -/
def State.refxOut (s : State) (vrefx : Int) : Bool :=
  let v := (s.reg 0x0C 0x11).toInt
  decide (v < 1000 * (vrefx - v).natAbs) || !refxWindow v

/-- The check of the external reference in a self slot. LIVE.REFXBAD stays 1 after REFSEL is written 0 up to the next self slot:
the manual names no other end (log entry 95). -/
def checkRefx (vrefx : Int) (s : State) : State :=
  if !bit (s.reg 0x0C 0x01) 1 then { s with leaf := { s.leaf with refxBad := false } }
  else
    let out := s.refxOut vrefx
    let new := out && !s.leaf.refxBad
    let s : State := { s with leaf := { s.leaf with
      refDiff := ofI (vrefx - (s.reg 0x0C 0x11).toInt), refxBad := out } }
    if new then leafErr 6 5 32 .corrected s else s

/-- A LEAF trim passes R135. -/
def selfTrimOk (t : Int × Int) (unit : Int) (limit : Int) : Bool :=
  trimFits t && decide ((t.1 * unit).natAbs ≤ limit) && decide (t.2.natAbs ≤ 5000)

/-- SELFSRC acts (R137). -/
def State.selfSrc (s : State) : Bool :=
  bit (s.reg 0x0C 0x01) 2 && decide (s.sec.life = .factory ∨ s.sec.life = .calibrated)

/-- A voltage count of the LEAF chain corrected with its own trims and coefficients, µV (R120). -/
def State.leafVolt (s : State) (num den : Int) : Int :=
  let t := s.leaf.trims[32].v
  let x : Int := (num - t.ot.toInt * den) * (10 ^ 7 + t.gt.toInt) - (s.reg 0x40 0x31).toInt * den * 10 ^ 7
  roundAway (x * (s.reg 0x40 0x30).toNat) (den * 10 ^ 9 * 2 ^ 30)

/-- The self slot applies the LEAF's own trims, or stops the visits (R135). 50 µV across 250 µΩ are 0.2 A. -/
def selfTrims (s : State) : State :=
  let t := s.newTrims
  if selfTrimOk t.1 1 5000 && selfTrimOk t.2.1 10 20000000 && selfTrimOk t.2.2 1 20000000 then
    { s with leaf := { s.leaf with
      selfFail := false, trims := s.leaf.trims.set 32 ⟨trimOf t.1, trimOf t.2.1, trimOf t.2.2⟩ } }
  else
    leafErr 5 3 32 .contained { s with leaf := { s.leaf with selfFail := true } }

/-- SELF_SLOT_END, after LTIME.SELF (R135, R136): its trims rest on the internal reference where the slot finds the external one
out, or ran on the internal one so far. What SELFSRC measured is published with the next frame (R57, R60, R137). -/
def opSelfEnd (vrefx : Int) (s : State) : State :=
  if s.leaf.phase ≠ .selfSlot ∨ s.leaf.inPhase < s.phaseMs 0 then s
  else
    let was := s.leaf.refxBad
    let s := checkRefx vrefx s
    let bad := s.leaf.refxBad
    let s : State := { s with leaf := { s.leaf with refxBad := was || bad } }
    let s := if s.selfSrc then
        { s with leaf := { s.leaf with
          selfV := if s.leaf.sums.1.nr = 0 then none else some (ofI (s.leafVolt s.leaf.sums.1.r s.leaf.sums.1.nr)) } }
      else selfTrims s
    let s : State := { s with
      leaf := { s.leaf with rotcnt := s.leaf.rotcnt + 1, nextN := 0, refxBad := bad }, pwr := { s.pwr with leafWake := false } }
    leafIdle (raiseBit bLeaf 0 s)

/-- LEAF_AGED: ages evaluated in RUN (R131). -/
def opAged (n : Chan) (s : State) : State :=
  let most := 1000 * max 100 (s.regF 0x0C 0x0A 0 16)
  if decide (s.pwr.state = .run) && bit (s.reg 0x0C 0x09) n.val && decide (most < s.leaf.ages[n.val])
      && !bit s.leaf.aged n.val then
    raiseBit bLeaf 1 { s with leaf := { s.leaf with aged := s.leaf.aged ||| bitW n.val } }
  else s

/-- LEAF.CTRL has been written: EN = 0 ends the visit (R133). With EN = 1 again the rotation goes on where it stood: the manual
gives its start once, before the loop (log entry 95). -/
def leafCtrlWritten (s : State) : State := if bit (s.reg 0x0C 0x01) 0 then s else leafLeave false s

end Sys2Proof.Machine
end

