-- ==== Sys2Proof/Machine/Numeric.lean ====
section
/-! DEFINITION. Logarithm, sine and cosine in fixed point, for the equations of 04_measurement_and_leaf.md (R112, R113) and
06_grading_and_log.md (R207): numbers in units of 2⁻⁸⁰, series cut where their terms vanish (log entry 6). -/

namespace Sys2Proof.Machine

/-- 1 in fixed point. -/
def fxOne : Int := 2 ^ 80

/-- A fixed-point product. -/
def fxMul (x y : Int) : Int := x * y / fxOne

/-- A fixed-point number as a rational. -/
def fxRat (x : Int) : Rat := (x : Rat) / (fxOne : Rat)

/-- Σ z^(2k+1) / (2k+1) over `fuel` terms from term k on, with p = z^(2k+1) and zz = z². -/
def atanhSum (zz : Int) : Nat → Nat → Int → Int
  | 0, _, _ => 0
  | fuel + 1, k, p => p / (2 * k + 1) + atanhSum zz fuel (k + 1) (fxMul p zz)

/-- The natural logarithm of a / b for a and b within a factor of 2 of one another: 2 artanh ((a − b) / (a + b)). -/
def lnNear (a b : Nat) : Int :=
  let z := ((a : Int) - b) * fxOne / ((a : Int) + b)
  2 * atanhSum (fxMul z z) 28 0 z

/-- ln (num / den), both positive. -/
def lnFix (num den : Nat) : Int :=
  let e : Int := (Nat.log2 num : Int) - Nat.log2 den
  lnNear (num * 2 ^ (-e).toNat) (den * 2 ^ e.toNat) + e * lnNear 2 1

/-- π. -/
def fxPi : Int := 3797952473636338580787993

/-- The terms (iθ)^j / j! from term j on, with t that term: their sum, real and imaginary part. -/
def expSum (theta : Int) : Nat → Nat → Int × Int → Int × Int
  | 0, _, t => t
  | fuel + 1, j, t =>
    let r := expSum theta fuel (j + 1) (-(fxMul t.2 theta) / (j + 1), fxMul t.1 theta / (j + 1))
    (t.1 + r.1, t.2 + r.2)

/-- cos and sin of the angle of k / m turns. -/
def cosSin (k m : Nat) : Int × Int :=
  let x : Int := (k % m : Nat)
  let x := if (m : Int) < 2 * x then x - m else x
  expSum (2 * fxPi * x / m) 44 0 (fxOne, 0)

end Sys2Proof.Machine
end

