-- ==== Sys2Proof/Machine/CaptureOps.lean ====
section
/-! DEFINITION. Captures, DCIR and EIS steps, and the recovery of log slots and core code (06_grading_and_log.md, R192 to
R210; 11_memories_and_checks.md, R332, R334, R336). -/

namespace Sys2Proof.Machine

/-- The active step of channel n has completed: it ends at the end of the frame (R151, R167). -/
def stepDone (n : Chan) (s : State) : State := s.modSeq n fun q => { q with done := true }

/-! ### Capture (R199, R200) -/

/-- The pairs of a capture. -/
def pairsMax : Nat := 508

/-- One sample enters the pair in progress: a pair is written when DEC samples are in it, its means rounded to nearest, where
R199 names no rounding (log entry 97). -/
def capture (n : Chan) (dec : Nat) (x : Int × Int) (s : State) : State :=
  let p := (s.cell n).pair
  if pairsMax ≤ p.written then s
  else
    let v := p.v + x.1
    let i := p.i + x.2
    if p.k + 1 < dec then s.modCell n fun c => { c with pair := { p with k := p.k + 1, v := v, i := i } }
    else
      let s := s.modCell n fun c => { c with pair := ⟨0, 0, 0, p.written + 1⟩ }
      match s.cap.uses[n.val] with
      | some u =>
        if u.kind ≠ 1 then s
        else
          let s := s.putWords .c (slotAddr n (8 + 2 * p.written))
            [ofI (roundFree v dec), ofI (roundFree i (100 * dec))]
          putSlot n 0 (slotHead 1 u.entry n (p.written + 1)) s
      | none => s

/-- The streams of a frame reach the capture of channel n. -/
def takePairs (n : Chan) (xs : List (Int × Int)) (s : State) : State :=
  if !bit s.cap.armed n.val then s
  else
    let dec := match s.cap.uses[n.val] with
      | some u => max 1 (fld u.w3 0 16)
      | none => s.captDec n
    xs.foldl (fun s x => capture n dec x s) s

/-- CAPTURE_END: the capture has its 508 pairs. The end of its step ends it by itself (R199). -/
def opCaptureEnd (n : Chan) (s : State) : State :=
  if !s.works dCapt || decide ((s.cell n).pair.written < pairsMax) then s else endCapture n s

/-! ### DCIR (R145, R200 to R203) -/

/-- Counts of 0.01 to whole units, ties away from zero. -/
def wholeUnits (x : Int) : Int := roundAway x 100

/-- Bin i of 50 µs from the samples at f (R201). -/
def binAt (f : Nat → Int) (i : Nat) : Word :=
  let k := 5 * (i / 2)
  ofI (if i % 2 = 0 then roundFree (2 * f k + 2 * f (k + 1) + f (k + 2)) 5
    else roundFree (f (k + 2) + 2 * f (k + 3) + 2 * f (k + 4)) 5)

/-- The bins complete after m samples. -/
def binsOf (m : Nat) : Nat := 2 * (m / 5) + (if 3 ≤ m % 5 then 1 else 0)

/-- Words of the slot of a DCIR use, with the data count, while CAPT is on (R20). -/
def putDcir (n : Chan) (w : Nat) (vs : List Word) (count : Nat) (s : State) : State :=
  if !s.works dCapt then s else
  match s.cap.uses[n.val] with
  | some u =>
    if u.kind ≠ 2 then s
    else putSlot n 0 (slotHead 2 u.entry n count) (s.putWords .c (slotAddr n w) vs)
  | none => s

/-- A DCIR step of channel n in a phase of `ps`. -/
def State.dcirStep (s : State) (n : Chan) (ps : List (BitVec 2)) : Option Step :=
  match s.activeStep n with
  | some st => if st.typ = 7 ∧ (s.cell n).dcir.phase ∈ ps then some st else none
  | none => none

/-- Samples from the pulse edge to the samples brought so far. -/
def State.sinceEdge (s : State) (n : Chan) : Int := (s.cell n).dcir.edge + s.gotN n

/-- DCIR_PULSE_EDGE, after the base time of w3: V0 and I0 of the window that ends here, the bins of the last 10 ms, and the
pulse setpoint (R145, R201, R202). -/
def opPulseEdge (n : Chan) (x : Fresh) (s : State) : State :=
  let s := bring x s
  match s.dcirStep n [1] with
  | none => s
  | some st =>
    if (s.cell n).ps.rsw ∨ (s.cell n).seq.levelT + (s.gotN n : Int) < (50 * fld st.w[3] 0 16 : Nat) then s
    else
      let h := s.recent n (s.streamNow n)
      let b := meanPair (lastOf (50 * min 10 (fld st.w[3] 0 16)) h)
      let at_ := s.gotN n
      let s := s.modCell n fun c => { c with dcir := { c.dcir with phase := 2, edge := -(at_ : Int), base := b, bins := 200 } }
      let s := putDcir n 8 ((List.range 200).map (binAt fun k => (h.getD k (0, 0)).1)) 200 s
      applyReference n st (putDcir n 3 [ofI (wholeUnits b.2)] 200 s)

/-- The bins that the frame that ends has completed; h: the last 500 samples, the frame's with them. Those that follow a
COMPLETE end with the 1,000th (R201). -/
def takeBins (n : Chan) (h : List (Int × Int)) (s : State) : State :=
  let d := (s.cell n).dcir
  if (d.phase = 0 ∨ d.phase = 1) ∧ d.tail = none then s
  else
    let m := (s.sinceEdge n).toNat
    let new := (List.range (min 800 (binsOf m))).drop (d.bins - 200)
    let ws := new.map (binAt fun k => (h.getD (k + 500 - m) (0, 0)).1)
    let s := if ws = [] then s else putDcir n (8 + d.bins) ws (d.bins + ws.length) s
    let s := s.modCell n fun c => { c with dcir := { c.dcir with bins := d.bins + ws.length } }
    if d.tail = some true ∧ 1000 ≤ d.bins + ws.length then endTail n s else s

/-- DCIR_PULSE_END. -/
def opPulseEnd (n : Chan) (x : Fresh) (s : State) : State :=
  let s := bring x s
  match s.dcirStep n [2] with
  | some st =>
    if s.sinceEdge n < (50 * fld st.w[3] 16 16 : Nat) then s
    else applyReference n st (s.modCell n fun c => { c with dcir := { c.dcir with phase := 3 } })
  | none => s

/-- t_1 or t_2 in units of 0.1 ms, as DCIR_CFG has them when R_x is formed, whatever was written since the load (log entry 97). -/
def State.dcirTime (s : State) (n : Chan) (second : Bool) : Nat :=
  let c := s.chReg n.val 0x60
  if second then 10 * max 1 (fld c 16 16) else max 1 (fld c 0 16)

/-- Samples of the window of R_x: the shorter of w_x and t_x / 2, a half sample of it dropped (log entry 88). -/
def dcirWindow (t : Nat) (second : Bool) : Nat := min (if second then 500 else 50) (5 * t / 2)

/-- Vx and Ix: the means over the window of R_x, when its samples are there (R202). -/
def State.dcirMeans (s : State) (n : Chan) (second : Bool) : Option (Int × Int) :=
  let t := s.dcirTime n second
  let past := s.sinceEdge n - 5 * t
  let w := dcirWindow t second
  if past < 0 ∨ 500 < past + w then none
  else
    let h := s.recent n (s.streamNow n)
    some (meanPair (lastOf w (h.take (500 - past.toNat))))

/-- R_x is valid (R203). -/
def State.dcirValid (s : State) (n : Chan) (st : Step) (second : Bool) (d : Int) : Bool :=
  !(s.cell n).dcir.spoiled && decide (s.dcirTime n second ≤ 10 * fld st.w[3] 16 16)
    && decide (s.gangFs n st.range ≤ (d.natAbs : Int)) && decide (d ≠ 0)

/-- R_x in µΩ, from the differences of the means (R202). -/
def dcirQuotient (dv di : Int) : Int := roundAway (dv * 1000000) di

/-- R_x as its word shows it. -/
def dcirWord (r : Int) : Word := if r = -(2 ^ 31) then Config.wordRange r else fitWord r

/-- The DCIR words a result forms (R202, R203): `m` holds Vx and Ix. DCIR_V0 and DCIR_I0 are written with it, and not at the
edge (log entry 97). -/
def dcirForm (second valid : Bool) (m : Int × Int) (d : Dcir) : Dcir :=
  let di := m.2 - d.base.2
  let w : Word := if valid then dcirWord (dcirQuotient (m.1 - d.base.1) di) else 0x80000000
  let stat := setB d.stat (if second then 1 else 0) valid
  let stat := if valid && !d.anyValid then satHi stat else stat
  let di := ofI (wholeUnits di)
  { d with
      stat := stat, anyValid := d.anyValid || valid, v0 := ofI (wholeUnits d.base.1), i0 := ofI (wholeUnits d.base.2)
      r1 := if second then d.r1 else w, r2 := if second then w else d.r2
      done1 := d.done1 || !second, done2 := d.done2 || second
      di1 := if second then d.di1 else di, di2 := if second then di else d.di2
      last1 := if valid && !second then some w.toInt else d.last1
      last2 := if valid && second then some w.toInt else d.last2 }

/-- R_x of the DCIR step has been formed. -/
def Dcir.formed (d : Dcir) (second : Bool) : Bool := if second then d.done2 else d.done1

/-- DCIR_RESULT: R_x is formed once, from t_x after the edge on, while CAPT is on (R20). -/
def opDcirResult (n : Chan) (second : Bool) (x : Fresh) (s : State) : State :=
  let s := bring x s
  match s.dcirStep n [2, 3], s.dcirMeans n second with
  | some st, some m =>
    let d := (s.cell n).dcir
    if d.formed second || !s.works dCapt then s
    else
      let v := s.dcirValid n st second (m.2 - d.base.2)
      let s := s.modCell n fun c => { c with dcir := dcirForm second v m c.dcir }
      putDcir n (if second then 5 else 4) [ofI (wholeUnits m.2)] d.bins s
  | _, _ => s

/-- DCIR_COMPLETE, after the second base time. -/
def opDcirComplete (n : Chan) (x : Fresh) (s : State) : State :=
  let s := bring x s
  match s.dcirStep n [3] with
  | some st => if s.sinceEdge n < (50 * (fld st.w[3] 16 16 + fld st.w[3] 0 16) : Nat) then s else stepDone n s
  | none => s

/-! ### EIS (R204 to R210) -/

/-- FSTART and FSTOP, mHz. -/
def Step.eisStart (st : Step) : Nat := clampN 100 5000000 st.desc[0].toNat
def Step.eisStop (st : Step) : Nat := clampN 100 5000000 st.desc[1].toNat
def Step.eisN (st : Step) : Nat := eisNpts st.desc[2]

/-- f_k as the m-th root of a fraction: f_k^m = num / den, mHz (R205). -/
def Step.eisFreq (st : Step) (k : Nat) : Nat × Nat × Nat :=
  let m := st.eisN - 1
  if m = 0 then (1, st.eisStart, 1)
  else if bit st.desc[2] 7 then (1, st.eisStart * (m - k) + st.eisStop * k, m)
  else (m, st.eisStart ^ (m - k) * st.eisStop ^ k, 1)

/-- T_int,k in ms: the longer of TMIN and ⌈NCYC / (2 × f_k)⌉. -/
def Step.eisTint (st : Step) (k : Nat) : Nat :=
  let (m, num, den) := st.eisFreq k
  let c := max 1 (fld st.desc[2] 16 8) * 1000000
  -- smallest t with (2 t)^m × num ≥ c^m × den
  let t := irootAux m (c ^ m * den / (2 ^ m * num)) 40 0
  let t := if c ^ m * den ≤ (2 * t) ^ m * num then t else t + 1
  max (max 10 (fld st.desc[3] 0 16)) t

/-- j of f'_k = j × Δf_k: f_k / Δf_k to nearest, at least 1. -/
def Step.eisBin (st : Step) (k : Nat) : Nat :=
  let (m, num, den) := st.eisFreq k
  let t := st.eisTint k
  -- q = ⌊2 f_k / Δf_k⌋, Δf_k = 10⁶ / (2 t) mHz
  let top := (4 * t) ^ m * num
  let bot := 1000000 ^ m * den
  let q := irootAux m (top / bot) 48 0
  let tie := decide (q % 2 = 1) && decide (q ^ m * bot = top)
  max 1 (if tie && !Config.tieAway q 2 then (q - 1) / 2 else (q + 1) / 2)

/-- The multiple of Δf_k that channel n uses: f_n,k = b × Δf_k (R205). -/
def Step.eisMult (st : Step) (n : Chan) (k : Nat) : Nat :=
  let j := st.eisBin k
  if j + 32 ≤ 10 * st.eisTint k then j + n.val else j - n.val

/-- f_n,k, mHz, to nearest (R205, R208). -/
def Step.eisF (st : Step) (n : Chan) (k : Nat) : Nat := roundFreeN (st.eisMult n k * 1000000) (2 * st.eisTint k)

/-- Settle time of point k, ms: the longer of 10 ms and ⌈SETTLE / f'_k⌉ (R205). -/
def Step.eisSettle (st : Step) (k : Nat) : Nat :=
  max 10 (ceilN (fld st.desc[2] 8 8 * 2 * st.eisTint k) (st.eisBin k))

def cAdd (x y : Cplx) : Cplx := ⟨x.re + y.re, x.im + y.im⟩
def cMul (x y : Cplx) : Cplx := ⟨x.re * y.re - x.im * y.im, x.re * y.im + x.im * y.re⟩
def cSub (x y : Cplx) : Cplx := ⟨x.re - y.re, x.im - y.im⟩
/-- The square of the magnitude. -/
def cNorm (x : Cplx) : Nat := (x.re * x.re + x.im * x.im).toNat

/-- One sample under e^(−jθ) joins a sum. -/
def cJoin (a : Cplx) (x : Int) (t : Int × Int) : Cplx := ⟨a.re + x * t.1, a.im - x * t.2⟩

/-- The samples of one frame join the sums of their half-window: sample j of frame `ms` of the point (R206, R207). -/
def Eis.join (e : Eis) (b settle tint : Nat) (xs : List (Int × Int)) : Eis :=
  (xs.zipIdx (50 * e.ms)).foldl (fun e y =>
    let t := cosSin (b * y.2) (100 * tint)
    if e.ms < settle ∨ settle + 2 * tint ≤ e.ms then e
    else if e.ms < settle + tint then { e with va := cJoin e.va y.1.1 t, ia := cJoin e.ia y.1.2 t }
    else { e with vb := cJoin e.vb y.1.1 t, ib := cJoin e.ib y.1.2 t }) e

/-- Z = V / I in µΩ (R207). -/
def eisZ (x : Eis) : Int × Int :=
  let v := cAdd x.va x.vb
  let i := cAdd x.ia x.ib
  let d : Int := cNorm i
  if d = 0 then (Config.eisByZero 0 v.re, Config.eisByZero 1 v.im)
  else
    let w := cMul v ⟨i.re, -i.im⟩
    (roundFree (w.re * 1000000) d, roundFree (w.im * 1000000) d)

/-- COH × 10,000 (R207). The square roots are taken to 2⁻⁶⁴ (log entry 35). -/
def eisCoh (x : Eis) : Nat :=
  let root (n : Nat) : Nat := isqrt (n * 2 ^ 128)
  let d := root (cNorm (cSub (cMul x.va x.ib) (cMul x.vb x.ia)))
  let p := root (cNorm x.va * cNorm x.ib) + root (cNorm x.vb * cNorm x.ia)
  if cNorm x.ia = 0 ∨ cNorm x.ib = 0 ∨ p = 0 then
    (clampI 0 10000 (Config.eisByZero 2 x.va.re)).toNat
  else (clampI 0 10000 (roundFree (10000 * ((p : Int) - d)) p)).toNat

/-- |I| lies below half the programmed amplitude w2 (R208): 2 |ΣI| / N is the amplitude of the current over N samples. -/
def eisLow (x : Eis) (w2 : Int) (tint : Nat) : Bool :=
  decide (4 * (cNorm (cAdd x.ia x.ib) : Int) < 2500 * w2 * w2 * ((100 * tint) ^ 2 : Nat) * fxOne * fxOne)

/-- An EIS step of channel n whose sweep runs. -/
def State.eisStep (s : State) (n : Chan) : Option Step :=
  match s.activeStep n with
  | some st => if st.typ = 8 ∧ (s.cell n).eis.running then some st else none
  | none => none

/-- The words of a point in the slot, with the data count (R208). -/
def putPoint (n : Chan) (k count : Nat) (p : EisPoint) (flags : Word) (s : State) : State :=
  match s.cap.uses[n.val] with
  | some u =>
    if u.kind ≠ 3 then s
    else
      let s := s.putWords .c (slotAddr n (8 + 4 * k))
        [BitVec.ofNat 32 p.f, fitWord p.re, fitWord p.im, put p.coh 16 ||| flags ||| put k 0]
      putSlot n 0 (slotHead 3 u.entry n count) s
  | none => s

/-- The point that follows: a point to run again, else the next; a re-run that has ended has recovered its words (R208, R330,
R333). -/
def nextPoint (n : Chan) (s : State) : State :=
  let e := (s.cell n).eis
  let k := if e.rerun.isSome then e.k else e.k + 1
  let met := e.met.filter fun w => !decide (e.rerun = some ((w - 8) / 4))
  let s := (discardPoint n s).modCell n fun c => { c with eis := { c.eis with
    k := k, rerun := e.again.head?, again := e.again.tail, met := met } }
  if e.again ≠ [] && s.cap.uses[n.val].isSome then raiseBit bCap 3 s else s

/-- The point that is in progress, or to be run: none when all have been (R206). -/
def Eis.point (e : Eis) (npts : Nat) : Option Nat :=
  match e.rerun with
  | some k => some k
  | none => if e.k < npts then some e.k else none

/-- The streams of a frame reach the EIS point in progress; a trim in its window is noted (R207, R208). The first point counts
from the load of the step also where the load switches the range, which the manual leaves open (log entry 92). -/
def joinPoint (n : Chan) (st : Step) (xs : List (Int × Int)) (s : State) : State :=
  match (s.cell n).eis.point st.eisN with
  | none => s
  | some k =>
    let settle := st.eisSettle k
    s.modCell n fun c =>
      let e := c.eis.join (st.eisMult n k) settle (st.eisTint k) xs
      { c with eis := { e with
        taken := true, ms := e.ms + 1, thr := decide (settle ≤ e.ms) && (e.thr || c.trimmed) } }

/-- The window of the EIS point in progress opens at this frame boundary: a trim in force is noted (R208). -/
def openEisWindow (n : Chan) (s : State) : State :=
  match s.eisStep n with
  | none => s
  | some st => match (s.cell n).eis.point st.eisN with
    | none => s
    | some k => s.modCell n fun c =>
      { c with eis := { c.eis with thr := if c.eis.ms = st.eisSettle k then c.trimmed else c.eis.thr } }

/-- The errors the engine meets in the words of the sweep's slot (R333). -/
def readSweep (n : Chan) (ups : List Upset) (s : State) : State :=
  if s.cap.uses[n.val].isNone then s
  else readParity .c (slotAddr n 0) (32 + 16 * (s.cell n).eis.points.length) .capt .background (upsets ups s)

/-- Point k of the sweep has its settle time and both half-windows: its words, and the point that follows (R207, R208). -/
def formPoint (n : Chan) (st : Step) (k : Nat) (ups : List Upset) (s : State) : State :=
  let e := (s.cell n).eis
  if e.ms < st.eisSettle k + 2 * st.eisTint k then s
  else
    let z := eisZ e
    let p : EisPoint := ⟨st.eisF n k, z.1, z.2, eisCoh e⟩
    let pts := if e.rerun.isSome then e.points.set k p else e.points ++ [p]
    let s := s.modCell n fun c => { c with eis := { c.eis with points := pts } }
    let flags := putB e.clip 15 ||| putB (eisLow e st.w2 (st.eisTint k)) 14 ||| putB e.rerun.isSome 13 ||| putB e.thr 12
    nextPoint n (readSweep n ups (putPoint n k pts.length p flags s))

/-- EIS_POINT_END, with the last samples of the frame that ends both half-windows of the point. An error the engine meets after
the last point is mended here too. -/
def opPointEnd (n : Chan) (x : Fresh) (ups : List Upset) (s : State) : State :=
  let s := bring x s
  match s.eisStep n with
  | none => s
  | some st =>
    let e := (s.cell n).eis
    if !s.works dCapt then s
    else match e.point st.eisN with
    | none =>
      let s := readSweep n ups s
      if (s.cell n).eis.again = [] then s else nextPoint n (s.modCell n fun c => { c with eis := { c.eis with k := e.k - 1 } })
    | some k =>
      let last := decide (e.ms < st.eisSettle k + 2 * st.eisTint k) && !e.taken && decide (s.gotN n = 50)
      formPoint n st k ups (if last then joinPoint n st (s.streamNow n) s else s)

/-- The sweep of the running step has no point left: the step has completed (R206). -/
def sweepOver (n : Chan) (st : Step) (s : State) : State :=
  if ((s.cell n).eis.point st.eisN).isNone && (s.cell n).eis.again = [] then stepDone n s else s

/-- EIS_SWEEP_END: after the last point the step has completed. -/
def opSweepEnd (n : Chan) (s : State) : State :=
  match s.eisStep n with
  | none => s
  | some st => sweepOver n st s

/-- The frame that ends reaches the sweep, unless EIS_POINT_END has brought it there; a point or the sweep that ends with it does
so before its next frame begins (R206). -/
def takePoint (n : Chan) (xs : List (Int × Int)) (s : State) : State :=
  match s.eisStep n with
  | none => s
  | some st =>
    let s := if (s.cell n).eis.taken then s else joinPoint n st xs s
    let s := match (s.cell n).eis.point st.eisN with
      | none => s
      | some k => formPoint n st k [] s
    sweepOver n st s

/-! ### Recovery of BANK-L and of BANK-H code -/

/-- A recovery of bank b in the unit of `size` bytes that holds address a. -/
def State.recovery (s : State) (b : Bank) (a size : Nat) : Option Recovery :=
  s.memc.recov.find? fun r => decide (r.bank = b) && decide (r.addr / size = a / size)

/-- The recoveries of bank b in that unit: one for each word met (R330). -/
def State.recoveries (s : State) (b : Bank) (a size : Nat) : List Recovery :=
  s.memc.recov.filter fun r => decide (r.bank = b) && decide (r.addr / size = a / size)

/-- The recoveries of that unit have ended. -/
def endRecovery (b : Bank) (a size : Nat) (s : State) : State :=
  { s with memc := { s.memc with
    recov := s.memc.recov.filter fun r => decide (r.bank ≠ b) || decide (r.addr / size ≠ a / size) } }

/-- The channel and sequence number of the unread record in a slot. -/
def State.unreadIn (s : State) (slot : Nat) : Option (Chan × Word) :=
  let j := (slot + 8192 - s.logTail) % 8192
  (s.log.unread[j]?).map fun c => (c, s.log.wrcnt - BitVec.ofNat 32 s.fill + BitVec.ofNat 32 j)

/-- The words of a LOST record (R192). -/
def lostWords (c : Chan) (q : Word) : List Word :=
  recordWords #v[put c.val 27 ||| put 12 13, 0, 0, 0, 0, 0, 0, 0] q

/-- The report of one recovery in BANK-L or BANK-H. -/
def recovered (l : Line) (code : Nat) (c : FClass) (r : Recovery) (s : State) : State :=
  bankReport l c r.bank r.addr r.master r.acc (memErr code r.addr s)

/-- The engine rewrites a slot whose words met parity errors, one report for each (R330, R332); data bits equal to those stored
are a check-only event (R336). -/
def rebuildSlot (slot : Fin 8192) (s : State) : State :=
  let rs := s.recoveries .l (32 * slot.val) 32
  if rs = [] then s
  else
    let s := endRecovery .l (32 * slot.val) 32 s
    let fixed (ws : List Word) (s : State) :=
      let t := s.putWords .l (32 * slot.val) ws
      rs.foldl (fun u r => recovered lSramL 2 .corrected r
        (if s.mword .l (r.addr / 4 * 4) = t.mword .l (r.addr / 4 * 4) then checkOnly .l u else u)) t
    match s.unreadIn slot.val with
    | none => fixed (List.replicate 8 0) s
    | some (c, q) =>
      let sh := match s.log.shadow[c.val] with
        | some (q', rec) => if q' = q then some rec else none
        | none => none
      match sh with
      | some rec => fixed (recordWords rec.w q) s
      | none =>
        rs.foldl (fun u r => recovered lSramL 2 .contained r u) (raiseBit bLog 2 (s.putWords .l (32 * slot.val) (lostWords c q)))

/-- LOG_SLOT_REBUILD, in RUN and NAP: of a slot another read has met, or one the engine's own read meets now. -/
def opSlotRebuild (slot : Fin 8192) (ups : List Upset) (s : State) : State :=
  if !s.coreOn then s
  else rebuildSlot slot (readParity .l (32 * slot.val) (if ups = [] then 0 else 32) .log .read (upsets ups s))

/-- The group of the code whose words met parity errors is reloaded from the NVM patch image (R334, R441), one report for each
word. Equal data bits are a check-only event and the one corrected case; else the event is contained, also where NVM cannot
be read: then the restart recovers the words (R330, R336, R356). -/
def reloadGroup (addr : Nat) (ups : List Upset) (s : State) : State :=
  let rs := s.recoveries .h addr 256
  if rs = [] then s
  else
    let s := endRecovery .h addr 256 s
    let a := addr / 256 * 256
    let n := min 64 (s.hk.imageLen - a / 4)
    let s := readNvm ups (0x3000 + a) (4 * n) .hkcore s
    if decide (s.hk.image = .nvm) && s.patchValid && decide (s.hk.bootCrc = some (s.mword .nvm 0x300C))
        && s.nvmGood (0x3000 + a) (4 * n) then
      let t := s.putWords .h a (s.mwords .nvm (0x3000 + a) n)
      rs.foldl (fun u r =>
        if s.mword .h (r.addr / 4 * 4) = t.mword .h (r.addr / 4 * 4) then recovered lSramH 4 .corrected r (checkOnly .h u)
        else recovered lSramH 4 .contained r u) t
    else
      let s : State := { s with hk := { s.hk with mends := rs.map (·.addr / 4) ++ s.hk.mends } }
      rs.foldl (fun u r => recovered lSramH 4 .contained r u) (restartCore s)

/-- HK_GROUP_RELOAD, while HK runs: of a word another read has met, or one the core's own fetch meets now. -/
def opGroupReload (addr : Nat) (ups : List Upset) (s : State) : State :=
  if !s.works dHk then s
  else
    let s := upsets ups s
    let own := ups.any fun u => decide (u.bank = .h) && decide (u.addr = addr)
    reloadGroup addr ups (if own then readParity .h addr 4 .hkcore .fetch s else s)

end Sys2Proof.Machine
end

