-- ==== Sys2Proof/Machine/Measure.lean ====
section
/-! DEFINITION. What one measurement frame brings: integrators, user filter, frame values, temperatures, contact resistance,
BENCH sense, references and dead times (03_power_stage.md, R65, R81 to R84; 04_measurement_and_leaf.md, R107 to R114;
06_grading_and_log.md, R179 to R186, R212; 07_bench_bus.md, R213, R214). -/

namespace Sys2Proof.Machine

/-! ### Integrators (R179 to R186) -/

/-- The PLL trim in force at sample j of the frame that ends: `cuts` tells how many samples came before each change (R119). -/
def State.trimAt (s : State) (cuts : List Nat) (j : Nat) : Int :=
  match (cuts.zip s.clk.was).find? fun c => decide (j < c.1) with
  | some c => c.2.toInt
  | none => s.clk.pllTrim.toInt

/-- Δt weights: 20 µs × `w` at a PLL trim (R119, R186; log entry 36). -/
def chargeOf (trim : Int) (w : Nat) (i : Int) : Int := roundFree (i * 20 * w * 2 ^ 32) (10 ^ 8 + trim)

def energyOf (trim : Int) (w : Nat) (v i : Int) : Int :=
  roundFree (v * i * 2 * w * 2 ^ 32) (10 ^ 7 * (10 ^ 8 + trim))

/-- An accumulator takes a product. -/
def accAdd (a : BitVec 96) (x : Int) : BitVec 96 := a + BitVec.ofInt 96 x

/-- One sample instant of the accumulators; `step`: the frame belongs to a running step. -/
def Totals.add (t : Totals) (q e : Int) (step : Bool) : Totals :=
  { qIn := if 0 < q then accAdd t.qIn q else t.qIn
    qOut := if q < 0 then accAdd t.qOut (-q) else t.qOut
    eIn := if 0 < e then accAdd t.eIn e else t.eIn
    eOut := if e < 0 then accAdd t.eOut (-e) else t.eOut
    net := accAdd t.net q, cap := accAdd t.cap q
    stepQ := if step then accAdd t.stepQ q else t.stepQ
    stepE := if step then accAdd t.stepE e else t.stepE }

/-- The frame belongs to a running step of channel n, or of the leader of its gang (R182, R185). -/
def State.inStep (s : State) (n : Chan) : Bool :=
  let q := (s.cell (s.leader n)).seq
  q.step.isSome || q.owed.isSome

/-! ### User filter and frame values (R107, R108) -/

/-- One sample through the user filter with code fc. -/
def Filt.step (f : Filt) (fc : Nat) (x : Rat) : Rat × Filt :=
  if 10 ≤ fc then (x, { f with on := false })
  else if !f.on then (x, Filt.rest x)
  else
    let y := Config.userFilter fc x f.x1 f.x2 f.y1 f.y2
    (y, ⟨true, x, f.x1, y, f.y1⟩)

/-- Samples through a filter: the sum of the outputs, and the filter after them. -/
def filterSum (fc : Nat) (xs : List Int) (f : Filt) : Rat × Filt :=
  xs.foldl (fun (a : Rat × Filt) (x : Int) => let r := a.2.step fc (x : Rat); (a.1 + r.1, r.2)) ((0 : Rat), f)

/-- A weight of the samples of a frame (R186, R362). -/
def State.weight (s : State) (n : Chan) : Nat :=
  let d := s.regF 0x02 0x0C 0 7
  if s.pwr.state = .nap ∧ 4 ≤ d ∧ !s.trickleIn n then d else 1

/-- The streams of a frame reach integrators, filter, frame values and the last 10 ms of channel n; `own`: its own phase
current; `cuts`: where the PLL trim changed (R107, R108, R119, R180, R201, R212). -/
def takeStream (n : Chan) (cuts : List Nat) (xs : List (Int × Int)) (own : List Int) (s : State) : State :=
  if xs = [] then s
  else
    let w := s.weight n
    let inStep := s.inStep n
    let h := s.recent n xs
    let k : Int := xs.length
    let mean (y : Rat) : Int := roundAway y.num (100 * k * y.den)
    s.modCell n fun c =>
      let fc := c.meas.fc.toNat
      let tot := xs.zipIdx.foldl (fun t x =>
        let trim := s.trimAt cuts x.2
        t.add (chargeOf trim w x.1.2) (energyOf trim w x.1.1 x.1.2) inStep) c.tot
      let fv := filterSum fc (xs.map (·.1)) c.meas.fv
      let fi := filterSum fc (xs.map (·.2)) c.meas.fi
      let fo := filterSum fc own c.meas.fo
      let v := mean fv.1
      let i := mean fi.1
      { c with tot := tot, fv := v, fi := i, fp := roundAway (v * i) 1000000000
               meas := { c.meas with fv := fv.2, fi := fi.2, fo := fo.2, own := mean fo.1, hist := h } }

/-- Both paths carried current in some sample of the present frame. -/
def Stage.handed (p : Stage) : Bool := p.both || (p.was.any fun w => w.2.2) || p.enable.isSome

/-- HIGH and MID of a frame, in counts of 0.01 µA, are compared within ±3.6 A where no handover and no substitution runs; a frame
without a comparison breaks the row of differing frames (R111). -/
def takeMismatch (n : Chan) (a : Taken) (s : State) : State :=
  let total (l : List Int) : Int := l.sum
  let h := total (a.hm.map (·.1))
  let m := total (a.hm.map (·.2))
  let k : Int := a.hm.length
  let near := decide ((total (a.out.map (·.2))).natAbs ≤ 360000000 * k)
  let filled := match s.leaf.resume with
    | some (c, k) => decide (c = n) && decide (0 < k)
    | none => false
  let skip := decide (a.hm = []) || !near || (s.cell n).ps.handed || s.standsIn n || filled
  let far := decide (1000000000 * k + m.natAbs < 500 * (h - m).natAbs)
  s.modCell n fun c => { c with meas := { c.meas with differ := if !skip && far then c.meas.differ + 1 else 0 } }

/-! ### Temperature (R109 to R114) -/

/-- A temperature sensor: an NTC with R25 in units of 10 Ω and B in K, or a PT1000. -/
inductive Sensor where
  | ntc (r25 b : Nat)
  | pt1000
  deriving DecidableEq, Repr

/-- The sensor of a TTYPE, type 0 by an NTCX word (R112). -/
def sensorOf (ttype : Nat) (ntcx : Word) : Sensor :=
  match ttype with
  | 0 => .ntc (max 1 (fld ntcx 0 16)) (max 1000 (fld ntcx 16 16))
  | 2 => .ntc 1000 3950
  | 3 => .ntc 10000 4250
  | 4 => .pt1000
  | _ => .ntc 1000 3435

/-- 1/T − 1/298.15 K of a resistance of res / den tenths of an ohm, in 1/K (R112). -/
def ntcInverse (r25 b res den : Nat) : Rat := fxRat (lnFix res (den * 100 * r25)) / (b : Int)

/-- The resistance of a PT1000 in ohms at t °C by IEC 60751, whose coefficients come from that standard (log entry 6). -/
def ptOhms (t : Rat) : Rat :=
  let a : Rat := 39083 / 10000000
  let b : Rat := -5775 / 10000000000
  let c : Rat := -4183 / 1000000000000000
  1000 * (1 + a * t + b * t * t + (if t < 0 then c * (t - 100) * t * t * t else 0))

/-- The highest temperature on a grid of 2⁻²⁰ °C above −250 °C whose resistance is at most r ohms, by the bits of its number
from bit k down. -/
def ptSearch (r : Rat) : Nat → Nat → Nat
  | 0, g => g
  | k + 1, g =>
    let u := g + 2 ^ k
    ptSearch r k (if ptOhms ((u : Int) / 1048576 - 250) ≤ r then u else g)

/-- The temperature of a sensor in 0.01 °C at a resistance of res tenths of an ohm (R112). -/
def Sensor.temp (x : Sensor) (res : Nat) : Rat :=
  match x with
  | .ntc r25 b => 100 / (20 / 5963 + ntcInverse r25 b res 1) - 27315
  | .pt1000 => 100 * (((ptSearch ((res : Int) / 10) 30 0 : Nat) : Int) / 1048576 - 250)

/-- A resistance out of range: below R_lo / 2 or above 2 × R_hi (R113). R_lo of an NTC is that at 398.15 K, R_hi that at
233.15 K. -/
def Sensor.out (x : Sensor) (res : Nat) : Bool :=
  match x with
  | .ntc r25 b =>
    decide (res = 0) || decide (ntcInverse r25 b (2 * res) 1 < 20 / 7963 - 20 / 5963)
      || decide ((20 / 4663 - 20 / 5963 : Rat) < ntcInverse r25 b res 2)
  | .pt1000 => decide (((2 * res : Nat) : Int) / 10 < ptOhms (-50)) || decide (2 * ptOhms 200 < ((res : Int) : Rat) / 10)

/-- One temperature sample: the value before T_OFS, none when out of range, and the filter. -/
def tempSample (x : Sensor) (res : Nat) (f : Filt) : Option Rat × Filt :=
  if x.out res then (none, { f with on := false })
  else
    let t := x.temp res
    if !f.on then (some t, Filt.rest t)
    else
      let y := Config.tempFilter t f.x1 f.x2 f.y1 f.y2
      (some y, ⟨true, t, f.x1, y, f.y1⟩)

/-- T as published. A sensor in range whose value exceeds 327.67 °C, which has no word, publishes 0x7FFF, and an AUXT input that
does so counts as out of range: the manual states no value (log entry 95). -/
def tempWord (t : Option Rat) (ofs : Int) : Int :=
  match t with
  | none => 32767
  | some t => clampI (-32768) 32767 (Config.tempRound t + ofs)

/-- The AUXT inputs of a frame. An input of type 0 has no drawer: it takes the reset word of NTCX, for which the manual gives no
rule (log entry 79). -/
def takeAuxt (xs : List Nat) (s : State) : State :=
  (List.finRange 8).foldl (fun s k =>
    match xs[k.val]? with
    | none => s
    | some res =>
      let (t, f) := tempSample (sensorOf (s.regF 0x0C 0x13 (4 * k.val) 4) 0x0D6B03E8) res s.leaf.auxf[k.val]
      { s with leaf := { s.leaf with
        auxt := s.leaf.auxt.set k.val (BitVec.ofInt 16 (tempWord t 0)), auxf := s.leaf.auxf.set k.val f } }) s

/-- T of channel n: its own input, or an AUXT input (R114). -/
def formTemp (n : Chan) (res : Nat) (s : State) : State :=
  let c := s.chReg n.val 0x3D
  let ofs := (s.chReg n.val 0x38).toInt
  let src := fld c 4 4
  if h : 1 ≤ src ∧ src ≤ 8 then
    let a := (s.leaf.auxt[src - 1]).toInt
    s.modCell n fun c => { c with ftemp := if a = 32767 then 32767 else clampI (-32768) 32767 (a + ofs) }
  else
    let (t, f) := tempSample (sensorOf (fld c 0 4) (s.chReg n.val 0x3E)) res (s.cell n).meas.ft
    s.modCell n fun c => { c with ftemp := tempWord t ofs, meas := { c.meas with ft := f } }

/-- T of channel n, and how many values in a row lie beyond the leader's TMAX and TMIN (R88, R93). Those taken while the
comparator is not armed count too, which the manual leaves open (log entry 91). -/
def takeTemp (n : Chan) (res : Nat) (s : State) : State :=
  let s := formTemp n res s
  let l := s.leader n
  s.modCell n fun c => { c with meas := { c.meas with
    hot := if s.limit l 0x24 < c.ftemp then c.meas.hot + 1 else 0
    cold := if c.ftemp < s.limit l 0x25 then c.meas.cold + 1 else 0 } }

/-! ### Contact resistance (R212) -/

/-- The mean of 16 quotients, in µΩ, to nearest, where R212 names no rounding (log entry 97). -/
def cresMean (h : List (Int × Int)) : Int :=
  roundRat ((h.map fun p => (p.1 : Rat) / (p.2 : Rat)).sum / 16)

/-- VDROP and CRES of channel n; I is the frame value of its own phase current (R212). -/
def takeCres (n : Chan) (vforce : Int) (s : State) : State :=
  let c := s.cell n
  let p := c.ps
  let own := c.meas.own
  let vd := vforce - c.fv
  let imin : Int := 1000 * max 1 (fld (s.chReg n.val 0x72) 0 16)
  let ok := decide (s.range n ≠ 2) && decide (imin ≤ own.natAbs) && !p.moved && !p.rsw && !p.ramp && !p.handed
  s.modCell n fun c =>
    let m := { c.meas with vdrop := ofI vd }
    if !ok then { c with meas := m }
    else
      let h := ((vd * 1000000, own) :: m.cresHist).take 16
      let k := satInc 65535 m.cresCount
      let full := decide (16 ≤ h.length)
      { c with meas := { m with cresHist := h, cresCount := k, cresValid := full
                                cres := if full then fitWord (cresMean h) else m.cres } }

/-! ### BENCH (R213, R214) -/

/-- VB, IB, PB and the substitute of R214: what the rules use follows a change between the chain and the substitute, and the
substitute itself. The registers VB and PB keep what the chain measures meanwhile (log entry 97). -/
def takeBench (x : MeasIn) (s : State) : State :=
  let vb := clampI 0 16000000 x.vb
  let ib := roundAway (clampI (-50000000) 50000000 x.vshunt * 10000) (max 1 (s.regF 0x0B 0x2C 0 16))
  let b := s.bench
  let far := decide (x.vbLocal.natAbs < 20 * (vb - x.vbLocal).natAbs)
  let clear := if b.subst && !far then b.senseClear + 1 else 0
  let subst := b.subst && decide (clear < 10)
  let use := if subst || decide (b.forced = 2) then x.vbLocal else vb
  let s := useVb use { s with bench := { b with
    vb := ofI vb, ib := fitWord ib, pb := fitWord (roundAway (vb * ib) 1000000000), senseClear := clear, subst := subst
    senseFar := if far then b.senseFar + 1 else 0, vbLocal := x.vbLocal, forced := b.forced - 1 } }
  if b.subst || decide (b.forced ≠ 0) then judgeVb use s else s

/-! ### LEAF readings -/

/-- V, I and T of CH[32]: the LEAF chain's readings of what it measures (R59, R123). I is the MID conversion where the visited
channel's loop does not close on HIGH, else the HIGH one: the manual names none (log entry 51). What a self slot with SELFSRC has
measured replaces V for one frame (R137). -/
def takeLeaf (x : MeasIn) (s : State) : State :=
  let t := s.leaf.trims[32]
  let p := match s.visited with
    | some n => 0x20 + n.val
    | none => 0x40
  let mid := match s.visited with
    | some n => decide ((s.pathAt n 49).1 ≠ 0)
    | none => false
  let l := s.leaf.got
  let k : Int := l.length
  let mean (st : Stream) : Int := roundAway ((l.map fun y => st.value (t.get st) (s.coefs p st) (st.get (leafCounts y))).sum) (100 * k)
  let v := mean .v
  let i := if mid then mean .m else mean .h
  let s := s.modCh 32 fun c => { c with pub := { c.pub with
    v := match s.leaf.selfV with
      | some v => v
      | none => if l = [] then c.pub.v else ofI v
    i := if l = [] then c.pub.i else ofI i
    t := ofI16 (clampI (-32768) 32767 x.leafT) } }
  { s with leaf := { s.leaf with selfV := none } }

/-! ### References and dead times -/

/-- A number between 0 and x. -/
def towardZero (x y : Int) : Int := if 0 ≤ x then clampI 0 x y else clampI x 0 y

/-- One frame of the ramp of a CC step: |w3| µA nearer to w1. R145 and R9 give the ramp word neither sign nor format: the model
takes the magnitude of the signed word (log entry 97). -/
def rampTo (w1 i d : Int) : Int := if (w1 - i).natAbs ≤ d.natAbs then w1 else if i < w1 then i + d.natAbs else i - d.natAbs

/-- The current reference after one more frame: what the outer loop asks for, the ramp of CC, P / V and −V / R, or how far a
ramp to zero has got (R81, R98, R145, R164, R229). -/
def takeLoop (n : Chan) (demand : Int) (s : State) : State :=
  let p := (s.cell n).ps
  if p.ramp || p.toZero then setIref n (towardZero p.iref demand) s
  else match s.activeStep n with
    | none => s
    | some st =>
      if !p.conducts || p.rsw then s
      else if st.typ = 1 ∧ st.w[3] ≠ 0 then setReference n st (rampTo st.w1 p.want st.w[3].toInt) s
      else if st.typ = 4 ∨ st.typ = 5 then
        (if s.loopHeld n then s else setReference n st ((s.ownRef n st).getD p.want) s)
      else followLoop n demand s

/-- A dead time moves towards a measured interval plus MARGIN, 1 ns per switching period, within DTMIN and DTMAX (R84). -/
def State.adapt (s : State) (n : Chan) (old edge : Nat) : Nat :=
  let goal := clampN (s.dtMin n) (s.dtMax n) (edge + fld (s.chReg n.val 0x44) 0 4)
  let old := clampN (s.dtMin n) (s.dtMax n) old
  let periods := 200 + 25 * s.fswAct n
  if old < goal then min goal (old + periods) else max goal (old - periods)

/-- DT_ACT after a frame of switching (R83, R84); no adaptation during pulse skipping. -/
def takeDt (n : Chan) (lh hl : Nat) (s : State) : State :=
  let p := (s.cell n).ps
  if !p.switching then s
  else if s.dtFixed n then followDt n s
  else if s.skips n then s
  else s.modPs n fun p => { p with
    dtAct := put (s.adapt n (fld p.dtAct 16 6) lh) 16 ||| put (s.adapt n (fld p.dtAct 0 6) hl) 0 }

/-! ### The whole frame -/

/-- The net charge since START exceeds QMAX (R93, R179). -/
def State.overCharge (s : State) (n : Chan) : Bool :=
  let q := (s.chReg n.val 0x27 ++ s.chReg n.val 0x26 : BitVec 64).toInt
  !s.member n && decide (q * 2 ^ 32 < (s.cell n).tot.net.toInt)

/-- The comparators of channel n that act on what a frame has published: temperature, charge and sense loss (R93). -/
def State.frameTrips (s : State) (n : Chan) : List (Chan × Trip) :=
  (((if s.tempTrips n (s.cell n).meas.hot then [.tmax] else []) ++ (if s.tempTrips n (s.cell n).meas.cold then [.tmin] else [])
    ++ (if s.overCharge n then [.q] else []) ++ (if s.senseLost n then [.sense] else [])) : List Trip).map fun t => (n, t)

/-- What the samples of the frame bring to one channel. -/
def takeChannel (n : Chan) (cuts : List Nat) (c : ChanIn) (f : Chan → Taken) (s : State) : State :=
  let a := f n
  let xs := s.streamFrom n f
  let s := takeTemp n c.tres (takeStream n cuts xs (a.out.map (·.2)) s)
  let s := takeDt n c.edgeLH c.edgeHL (takeLoop n c.demand s)
  if a.out = [] then s.modCell n fun c => { c with meas := { c.meas with differ := 0 } }
  else
    let s := takeMismatch n a (takeCres n c.vforce s)
    if !s.works dCapt then s.modCell n fun c => { c with dcir := { c.dcir with tail := none } }
    else takePoint n xs (takeBins n (s.recent n []) (takePairs n xs s))

/-- The frame's samples are used; what began inside the frame counts on from its end. -/
def closeFrame (n : Chan) (s : State) : State :=
  s.modCell n fun c =>
    let p := c.ps.reach 50
    { c with
        meas := { c.meas with got := [] }
        ps := { p with was := [], enable := p.enable.map (· - 50), moved := p.rsw || p.ramp, flowed := p.flowed }
        dcir := if (c.dcir.phase = 0 ∨ c.dcir.phase = 1) ∧ c.dcir.tail = none then c.dcir
          else { c.dcir with edge := c.dcir.edge + 50 }
        eis := { c.eis with taken := false }
        seq := if c.seq.step.isSome then { c.seq with levelT := c.seq.levelT + 50 } else c.seq }

/-- L+ as a frame publishes it, and the conditions it meets (R393). -/
def takeLp (mv : Nat) (s : State) : State :=
  let s : State := { s with io := { s.io with lpv := BitVec.ofNat 32 mv } }
  let s := if mv < 9000 then opLpMissing s else if 10000 < mv then opLpReturn s else s
  if mv < 18000 then opLpLow s
  else if 18500 < mv then { s with io := { s.io with lpLow := false } } else s

/-- The measurements of a frame. -/
def takeFrame (x : MeasIn) (s : State) : State :=
  let s := bring ⟨(allChans.zip x.chans).map fun c => (c.1, c.2.samples), x.leaf⟩ s
  let s0 := s
  let raw : Vector Taken 32 := Vector.ofFn fun n => s0.taken n
  let f (n : Chan) : Taken := raw[n.val]
  let s := if s.works dMeasB then takeBench x (takeAuxt x.auxt s) else s
  let s := (allChans.zip x.chans).foldl (fun s c => if s.measOn c.1 then takeChannel c.1 x.cuts c.2 f s else s) s
  let s : State := forChans allChans (fun n s =>
    let a := f n
    { s with leaf := { s.leaf with
      alpha := if a.out = [] ∨ s0.standsIn n then s.leaf.alpha else s.leaf.alpha.set n.val a.alpha
      lastS := if s0.standsIn n then a.last else s.leaf.lastS } }) s
  let s := if s.works dMeasA then sumLeaf (takeLeaf x s) else s
  let s := forChans allChans (fun n s => closeBlend n (closeFrame n (closeUses n s))) s
  let s : State := { s with leaf := { s.leaf with got := [], gapAt := 0, resume := none }, clk := { s.clk with was := [] } }
  let s := trips (allChans.flatMap fun n => if s.measOn n then s.frameTrips n else []) s
  takeLp x.lpv s

end Sys2Proof.Machine
end

