-- ==== Sys2Proof/Machine/FrameEnd.lean ====
section
/-! DEFINITION. The end of a measurement frame: publication, the broker's accounting and queue, the evaluation of running
steps and the transitions, the choice of a power state (05_recipe_engine.md, R150 to R175; 07_bench_bus.md, R215 to
R229; 02_pages_and_drawers.md, R57, R60). -/

namespace Sys2Proof.Machine

/-! ### Broker accounting (R215, R216) -/

/-- Current flowed on channel n in the frame that ends. -/
def State.flowedIn (s : State) (n : Chan) : Bool :=
  let p := (s.cell n).ps
  p.flowed || p.conducts || p.ramp

/-- What the broker counts for a channel at a frame end: an estimate by its BENCH-side value at the ETA in force, or the limit
R222 took in its place. -/
def State.contrOf (s : State) (n : Chan) : Contr × Int :=
  let c := s.cell n
  let x : Contr × Int := match c.contr with
    | .none => (.none, 0)
    | .est e l none => (.est e l none, l.getD (s.benchSide e))
    | .est _ _ (some 0) => (.meas, s.benchSide c.fp)
    | .est e l (some (k + 1)) => (.est e l (some k), l.getD (s.benchSide e))
    | .meas => (.meas, s.benchSide c.fp)
    | .decay => if s.flowedIn n then (.decay, s.benchSide c.fp) else (.none, 0)
  if s.member n ∨ s.range n = 2 then (x.1, 0) else x

/-- Every contribution formed. -/
def formContributions (s : State) : State :=
  forChans allChans (fun n s =>
    let x := s.contrOf n
    s.modCell n fun c => { c with contr := x.1, cval := x.2 }) s

/-- PNET, PCHG and PDIS published (R216). -/
def publishNet (s : State) : State :=
  let s := noteNet s
  { s with bench := { s.bench with pnet := ofI s.bench.net, pchg := ofI s.bench.chg, pdis := ofI s.bench.dis } }

/-! ### Publication (R57, R60) -/

/-- The integer part of a total, which wraps modulo 2⁶⁴ (R181). -/
def totalWord (a : BitVec 96) : BitVec 64 := a.extractLsb' 32 64

/-- The integer part of an accumulator truncated towards zero (CAPQ). -/
def accWord (a : BitVec 96) : BitVec 64 := BitVec.ofInt 64 (accInt a)

/-- STEP_REASON as the sequencer forms it. -/
def Seq.reasonWord (q : Seq) : Word :=
  put q.rej.toNat 27 ||| put q.rejCmd.toNat 24 ||| put q.endEntry.val 14 ||| put q.tw.toNat 12 ||| put q.reason.toNat 0

/-- Offsets 0x10 to 0x1F and CAPQ of a cell drawer; a gang member's STEP_Q and STEP_E are its leader's (R185). -/
def State.pubOf (s : State) (n : Chan) : Pub :=
  let c := s.cell n
  let l := s.cell (s.leader n)
  { v := ofI c.fv, i := ofI c.fi, t := ofI16 c.ftemp, p := ofI c.fp
    qIn := totalWord c.tot.qIn, qOut := totalWord c.tot.qOut, eIn := totalWord c.tot.eIn, eOut := totalWord c.tot.eOut
    stepQ := ofI (satStep (accMilli l.tot.stepQ)), stepE := ofI (satStep (accMilli l.tot.stepE))
    stepT := BitVec.ofNat 32 c.seq.stepT, reason := c.seq.reasonWord, capq := accWord c.tot.cap }

/-- Words of the DIGEST entry of a cell channel. -/
def State.digestOf (s : State) (n : Chan) (p : Pub) : List Word :=
  let leafv := s.leaf.standin && decide (s.visited = some n)
  [p.v, p.i, put (fld p.t 0 16) 16 ||| put (s.cell n).seq.state.code 13 ||| putB (s.queued n) 12
    ||| putB (s.cell n).trimmed 11 ||| putB leafv 10 ||| put (s.cell (s.leader n)).seq.pc.val 0]

/-- Words of the DIGEST entry of the LEAF drawer. -/
def State.digestLeaf (s : State) : List Word :=
  let p := s.ch[32].pub
  [p.v, p.i, put (fld p.t 0 16) 16 ||| putB s.visiting 10
    ||| put (match s.visited with
      | some n => n.val
      | none => 0x3FF) 0]

/-- Drawers, DIGEST and FRAME published in one cycle. -/
def publish (s : State) : State :=
  let s0 := s
  let ws := (allChans.flatMap fun n => s0.digestOf n (s0.pubOf n)) ++ s0.digestLeaf
  let s := forChans allChans (fun n s => s.modCell n fun c => { c with pub := s0.pubOf n }) s
  { s with digest := Vector.ofFn fun i => ws.getD i.val 0, frame := s.frame + 1 }

/-! ### Counters of running steps (R148, R159, R168, R171, R183) -/

/-- Frame values are evaluated: in RUN, from 50 ms after a return (R159). -/
def State.evaluates (s : State) : Bool := decide (s.pwr.state = .run) && decide (s.pwr.settle = 0)

/-- The smaller, or larger, of a tracked value and a new one. -/
def trackMin (o : Option Int) (x : Int) : Option Int := some (match o with
  | none => x
  | some y => min x y)
def trackMax (o : Option Int) (x : Int) : Option Int := some (match o with
  | none => x
  | some y => max x y)

/-- The values of the frame reach the step they belong to; `evald`: the frame is evaluated. -/
def countFrame (n : Chan) (evald : Bool) (s : State) : State :=
  let nap := decide (s.pwr.state = .nap)
  s.modCell n fun c =>
    let q := c.seq
    let inStep := q.step.isSome || q.owed.isSome
    let active := decide (q.phase = .active)
    let q := if inStep then { q with minV := trackMin q.minV c.fv, maxT := trackMax q.maxT c.ftemp } else q
    let q := if q.step.isSome && decide (q.state = .run) then { q with loadT := q.loadT + 1 } else q
    let q := if active && (evald || nap) then { q with stepT := satMs (q.stepT + 1) } else q
    let q := if active && evald then
        { q with frames := q.frames + 1, vHist := (c.fv :: q.vHist).take 20000, iHist := (c.fi :: q.iHist).take 20000
                 peak := trackMax q.peak c.fv }
      else q
    { c with seq := q }

/-- The record a step that ended inside the frame still owes, and the end of its capture and of its slot's bins (R182, R190,
R199, R201). -/
def payOwed (n : Chan) (s : State) : State :=
  match (s.cell n).seq.owed with
  | none => s
  | some o =>
    let s := endCapture n ((stepRecord n o s).modSeq n fun q => { q with owed := none })
    if (s.cell n).dcir.tail = some false then endTail n s else s

/-- The compared values of this frame; a JUMP takes them and those of the frame before, and a transition's records its V, I and T,
but those of the transition's own frame once a stale hold waits in it (R156, R175, R190, R191). -/
def noteQuantities (n : Chan) (s : State) : State :=
  let c := s.cell n
  if !c.seq.state.live then s
  else
    let w := match c.seq.step with
      | some st => st.dtwin
      | none => 0
    let cur := s.quantities n w
    s.modSeq n fun q => match q.next with
      | .stale _ => { q with lastQ := cur }
      | _ => { q with prevQ := q.lastQ, jumpQ := cur, jumpF := (c.fv, c.fi, c.ftemp), lastQ := cur }

/-! ### Queue (R168 to R170, R221) -/

/-- Steps admitted before this boundary run from here: their setpoints apply (R170, R221). One that needs the gate drivers, which
NAP disables, waits for the first frame end in RUN (R358, R370). -/
def activate (n : Chan) (s : State) : State :=
  if (s.cell n).seq.phase ≠ .admitted then s
  else match s.step n with
    | none => s
    | some st =>
      if s.pwr.state ≠ .run ∧ !st.open ∧ st.range ≠ 2 then s
      else beginSetpoint n st (s.modSeq n fun q => { q with phase := .active })

/-- One admission of the queue evaluation, at most `fuel` of them. -/
def admitQueue : Nat → State → State
  | 0, s => s
  | fuel + 1, s =>
    match s.pick true (rankOrder s.bench.queue) with
    | none => s
    | some x =>
      let s := withdraw x.idx (admitEntry x s)
      admitQueue fuel (if h : x.idx.val < 32 then admittedCh ⟨x.idx.val, h⟩ s else s)

/-- OVERSIZE: the evaluation takes a limit in the place of an entry's estimate (R222). -/
def noteOversize (s : State) : State := raiseIf (s.bench.queue.any s.oversize) bBench 3 s

/-- The waits of the queue grow by one frame, and stalls are noted (R225). -/
def waitQueue (s : State) : State :=
  noteStalls (fun _ => true)
    { s with bench := { s.bench with queue := s.bench.queue.map fun x => { x with waited := x.waited + 1 } } }

/-! ### Evaluation and transitions (R150 to R154, R158, R167, R175) -/

/-- The four words of a running step evaluated: their qualification, and the first that fired (R151). -/
def evalWords (st : Step) (cv : Bool) (g : Nat) (cur : List (Option Int)) (ts : Vector Term 4) :
    Vector Term 4 × Option (Fin 4) :=
  let r : Vector (Term × Bool) 4 := Vector.ofFn fun j => evalWord st cv g cur j ts[j.val]
  (r.map (·.1), (List.finRange 4).find? fun j => r[j.val].2)

/-- A WAIT for the host clears its RELEASE bit in the cycle in which it ends (R158). -/
def takeRelease (n : Chan) (st : Step) (s : State) : State :=
  if st.typ = 12 ∧ st.waitSrc = 0 then { s with rcp := { s.rcp with release := s.rcp.release &&& ~~~ bitW n.val } } else s

/-- A step whose current is held at zero by R64 starts to conduct when the cell voltage allows it. -/
def leaveLowV (n : Chan) (st : Step) (s : State) : State :=
  if st.open || decide (st.range = 2) || s.lowV n st || (s.cell n).ps.conducts then s else applySetpoint n st s

/-- Below 0.3 V no half-bridge goes on switching, whatever its channel does (R64): a step in HIGH or MID holds zero current, one
in TRICKLE goes on over the trickle stage alone, and a ramp to 0, of SAFE too, goes on only there (log entry 96). -/
def stopLowV (n : Chan) (s : State) : State :=
  let g := s.gangOf n
  if s.member n || decide (300000 ≤ (s.cell n).fv) || !(g.any fun k => (s.cell k).ps.switching) then s
  else match (s.activeStep n).filter fun st => !st.open with
    | some st => if st.range = 2 then applySetpoint n st s else holdLowV n s
    | none =>
      if (g.any fun k => (s.cell k).ps.ramp) && !(g.any fun k => (s.cell k).ps.trickleOn) then endRamp n s
      else forChans g stopHalf s

/-- The running step of channel n at a frame end that is evaluated: a word that fires goes before an end by itself (R151). -/
def evaluateStep (n : Chan) (stop : Option Nat) (st : Step) (s : State) : State :=
  let q := (s.cell n).seq
  let r := evalWords st q.cvph (s.gangG n) q.lastQ q.terms
  let s := s.modSeq n fun q => { q with terms := r.1 }
  match r.2 with
  | some j => fire n stop q.jumpQ q.prevQ st j (takeRelease n st s)
  | none =>
    if q.done ∨ (st.typ = 12 ∧ s.waitDone n st) then complete n stop q.jumpQ q.prevQ st (takeRelease n st s)
    else leaveLowV n st s

/-- The engine serves channel n; `evald`: its step ran through this whole frame and the frame is evaluated. `stop`: a SAFE
command meets its transition (R163). After a stale hold the transition's JUMPs and records take the frame whose end began it
(R156, R175, R190, R191). -/
def serveChannel (n : Chan) (stop : Option Nat) (evald : Bool) (s : State) : State :=
  let q := (s.cell n).seq
  match q.state, q.next, q.step with
  | .run, .load e, _ => transit n q.jumpQ q.prevQ stop 16 e s
  | .hold, .stale e, _ =>
    if s.needsStale n (s.fetchStep e) then s else transit n q.jumpQ q.prevQ stop 16 e (setState n .run s)
  | .run, _, some st =>
    if s.overTime n then stepTimeout n true s
    else if evald then evaluateStep n stop st s
    else s
  | _, _, _ => s

/-- When a SAFE command meets the transition of channel n. -/
def stopOf (l : List (Chan × Nat)) (n : Chan) : Option Nat := (l.find? fun x => decide (x.1 = n)).map (·.2)

/-! ### The whole processing -/

/-- Ages of the LEAF's channels, its visit time, and PWR.NEXT_EVENT advance by one frame. -/
def countMs (s : State) : State :=
  let busy := s.visiting || decide (s.leaf.phase = .selfSlot)
  let s : State := { s with leaf := { s.leaf with
    ages := s.leaf.ages.map (· + 1), time := if busy then s.leaf.time + 1 else s.leaf.time
    inPhase := if busy then s.leaf.inPhase + 1 else s.leaf.inPhase } }
  countNextEvent 1 s

/-- The frame end up to the queue: what the frame brings is measured, counted and published, and the setpoints of the steps
admitted at the last frame end apply. U and k_p are formed (R229) after these setpoints and before the queue is evaluated, an
order that the manual leaves open (log entry 91). -/
def frameSums (x : MeasIn) (s : State) : State :=
  let s := applyTail (flushRecords (upsets x.ups s))
  let s := countMs (countCalendar x.periods (takeFrame x s))
  let evald := s.evaluates
  let s := forChans allChans (countFrame · evald) s
  let s : State := { s with bench := { s.bench with tick := s.bench.tick + 1 } }
  let s := leafBoundary (publish (publishNet (formContributions s)))
  let s := forChans allChans activate s
  forChans allChans openEisWindow (updateKp s)

/-- The frame end up to the recipe engine: the queue has been evaluated, and the values that steps compare are formed. -/
def frameValues (x : MeasIn) (s : State) : State :=
  forChans allChans noteQuantities (waitQueue (noteNet (admitQueue 33 (noteOversize (frameSums x s)))))

/-- The frame ends (log entry 16): nothing before READY and in DOZE and SLEEP, where the chains stand. -/
def opFrameEnd (x : MeasIn) (s : State) : State :=
  if !s.ready || s.asleep then s
  else
    let ran := allChans.filter fun n => decide ((s.cell n).seq.phase = .active)
    let s := frameValues x s
    let evald := s.evaluates
    let s := forChans allChans (fun n s =>
      let s := payOwed n s
      if s.pwr.state = .run then serveChannel n (stopOf x.safes n) (evald && decide (n ∈ ran)) s else s) s
    let s := forChans allChans (fun n s =>
      opAged n ((stopLowV n s).modPs n fun p => { p with flowed := false })) s
    let run := decide (s.pwr.state = .run)
    let s : State := { s with pwr := { s.pwr with
      settle := if run then s.pwr.settle - 1 else s.pwr.settle, inRun := if run then s.pwr.inRun + 1 else s.pwr.inRun
      napFrames := if run then 0 else s.pwr.napFrames + 1 } }
    choosePower x.busy s

end Sys2Proof.Machine
end

