-- ==== Sys2Proof/Machine/Settle.lean ====
section
/-! DEFINITION. What follows every command at once: references under R233, output levels, the lid trigger, WAIT sources,
domains, ALERT latches, and a limit that arises in NAP or during an entry. -/

namespace Sys2Proof.Machine

/-- The lid trigger, and the levels it moves. -/
def settleLid (s : State) : State :=
  let t := noteTrigger 1 s.lid s
  if s.lid && !s.sec.trig.getLsbD 1 then settleOutputs t else t

/-- A limit of R364 no longer allows NAP, or the state an entry goes to (R367, R370). -/
def settlePower (s : State) : State :=
  let most := s.deepest (s.limits false)
  if (decide (s.pwr.state = .nap) && decide (most = 0)) || (s.pwr.entering && decide (most < s.pwr.chosen.code)) then
    wakeBy 10 0 s
  else s

/-- The state that every command leaves. -/
def settle (s : State) : State :=
  let s := settleLid (settleOutputs (settleReactions (uvGuard s)))
  let s := forChans allChans noteWait s
  settlePower (settleAlerts (settleDomains s))

end Sys2Proof.Machine
end

