-- ==== Sys2Proof/Machine/LevelOps.lean ====
section
/-! DEFINITION. The level channels, the supplies and their loss (01_architecture.md, R26 to R32; 03_power_stage.md, R94;
16_pins_and_isolation.md, R464; 17_electrical.md, R478). -/

namespace Sys2Proof.Machine

/-! ### ESTOP# and HGP -/

/-- ESTOP# has become asserted: every channel to SAFE, safe values, and a wake (R30, R370, R391). -/
def estopActs (s : State) : State := wakeBy 4 0 (setSafeAll (allSafe s))

/-- ESTOP_ASSERT. -/
def opEstopAssert (s : State) : State :=
  let was := s.estop
  let t : State := { s with link := { s.link with estop := { s.link.estop with sent := false } } }
  if was then t else estopActs t

/-- ESTOP_DEASSERT: no channel changes (R30). -/
def opEstopDeassert (s : State) : State :=
  { s with link := { s.link with estop := { s.link.estop with sent := true } } }

/-- HGP0 or HGP1 set to a level channel value; a change of what it presents may wake the device (R370). -/
def setHgp (one : Bool) (l : Level) (s : State) : State :=
  let was := s.hgp one
  let t : State := { s with link := if one then { s.link with hgp1 := l } else { s.link with hgp0 := l } }
  if t.hgp one != was && t.hgpWakes one then wakeBy 5 0 t else t

/-- HGP_LEVEL_CHANGE. -/
def opHgpChange (one level : Bool) (s : State) : State :=
  setHgp one ⟨level, (if one then s.link.hgp1 else s.link.hgp0).lost⟩ s

/-! ### Refresh (R28, R29) -/

def levelOf (ch : LevelIn) (s : State) : Level :=
  match ch with
  | .sync => s.link.sync
  | .estop => s.link.estop
  | .hgp0 => s.link.hgp0
  | .hgp1 => s.link.hgp1

/-- STATUS bit of a channel's loss flag (R276). -/
def lossBit : LevelIn → Nat
  | .sync => 16
  | .estop => 17
  | .hgp0 => 18
  | .hgp1 => 19

/-- What a channel's fail-safe value does (R26, R391). -/
def loseLevel (ch : LevelIn) (s : State) : State :=
  match ch with
  | .sync => syncRefreshLost { s with link := { s.link with sync := { s.link.sync with lost := true } } }
  | .estop =>
    let was := s.estop
    let t : State := { s with link := { s.link with estop := { s.link.estop with lost := true } } }
    if was then t else estopActs t
  | .hgp0 => setSafe (fun k => decide (fld (s.pcfg k) 26 2 = 1)) (setHgp false { s.link.hgp0 with lost := true } s)
  | .hgp1 => setSafe (fun k => decide (fld (s.pcfg k) 26 2 = 2)) (setHgp true { s.link.hgp1 with lost := true } s)

/-- LEVEL_REFRESH_LOSS: the fail-safe value, the loss flag and the report (R26, R29). -/
def opRefreshLoss (ch : LevelIn) (s : State) : State :=
  if (levelOf ch s).lost then s
  else
    blockError bLink ((lossBit ch + 1) * 2 ^ 18) lHostlink .contained none .none (lossBit ch + 1)
      (raiseBit bLink (lossBit ch) (loseLevel ch s))

/-- LEVEL_REFRESH_RETURN: the channel presents the transmitted level (R28). -/
def opRefreshReturn (ch : LevelIn) (level : Bool) (s : State) : State :=
  match ch with
  | .sync => { s with link := { s.link with sync := ⟨level, false⟩ } }
  | .estop =>
    let was := s.estop
    let t : State := { s with link := { s.link with estop := ⟨level, false⟩ } }
    if !level && !was then estopActs t else t
  | .hgp0 => setHgp false ⟨level, false⟩ s
  | .hgp1 => setHgp true ⟨level, false⟩ s

/-! ### Supplies -/

/-- A SUPPLY error of class fatal: PWR counts it (R305), and R380 gives it no STATUS bit; detector 9 VDDA, 10 VDDP. -/
def supplyFatal (det : Nat) (s : State) : State := blockErrorFree bPwr lSupply .fatal none .none det s

/-- The field→host channels lose refresh: ALIVE holds its last level at the host side (R26, R31). -/
def loseRefresh (s : State) : State :=
  { s with link := { s.link with fieldRefresh := false
                                 aliveHeld := if s.link.fieldRefresh then s.fcol.alive else s.link.aliveHeld } }

/-- VDDA below its range (R31, R478). -/
def opVddaLoss (s : State) : State :=
  if s.sup.vddaLow then s
  else supplyFatal 9 { loseRefresh s with sup := { s.sup with vddaLow := true } }

/-- Every path off at once, no ramp (R433). -/
def allPathsOff (s : State) : State :=
  forChans allChans (fun n s => stopPaths n (s.modPs n fun p => { p with toFault := false })) s

/-- POR asserts (R328, R433, R478): paths off, the banks lost, the field die unpowered until POR releases. -/
def opVddioLoss (s : State) : State :=
  let s := loseBanks (loseRefresh (allPathsOff s))
  { s with pwr := { s.pwr with state := .off, entering := false, waking := none }
           sys := { s.sys with stage := 0, rstReq := none } }

/-- FIELD_SUPPLY_LOSS. -/
def opFieldLoss (vdda : Bool) (s : State) : State := if vdda then opVddaLoss s else opVddioLoss s

/-- FIELD_SUPPLY_RETURN: VDDA is back; refresh returns where the field die has VDDIO (R31). -/
def opFieldReturn (s : State) : State :=
  { s with sup := { s.sup with vddaLow := false }, link := { s.link with fieldRefresh := decide (s.pwr.state ≠ .off) } }

/-- HOST_SUPPLY_LOSS: the four host→field channels lose refresh, and the host die carries no frame (R32). -/
def opHostLoss (s : State) : State :=
  let s : State := { s with link := { s.link with hostUp := false, hcsLow := false } }
  opRefreshLoss .hgp1 (opRefreshLoss .hgp0 (opRefreshLoss .estop (opRefreshLoss .sync s)))

/-- HOST_SUPPLY_RETURN: the host die leaves reset; the channels present their levels as their refresh returns. -/
def opHostReturn (s : State) : State := { s with link := { s.link with hostUp := true } }

/-- VDDP_UV (R94). -/
def opVddpUv (s : State) : State :=
  if s.sup.vddpUv then s else supplyFatal 10 (vddpStop { s with sup := { s.sup with vddpUv := true } })

/-- VDDP_UV_CLEAR. -/
def opVddpClear (s : State) : State := { s with sup := { s.sup with vddpUv := false } }

end Sys2Proof.Machine
end

