-- ==== Sys2Proof/Machine/RegWrite.lean ====
section
/-! DEFINITION. What a master's write of one register word does: access codes, LOCK, and the words with behaviour of their
own (R13, R37 to R59 and the page tables of every chapter). -/

namespace Sys2Proof.Machine

/-! ### Common words -/

/-- ERR_CNT.THRESH and WINDOW as R42 sets them. -/
def cntFix (c : Common) (v : Word) : Common :=
  { c with thresh := if fld v 16 8 = 0 then 1 else BitVec.ofNat 8 (fld v 16 8)
           window := BitVec.ofNat 16 (clampN 1 60000 (fld v 0 16)) }

/-- A W1C write of STATUS; FCOL's clears the class words with it (R300). -/
def clearStatus (b : Fin 53) (v : Word) (s : State) : State :=
  let s := s.modCom b fun c => { c with status := w1c c.status v (statusMask b) }
  if b = bFcol then
    { s with fcol := { s.fcol with clsCor := s.fcol.clsCor &&& ~~~ v, clsCon := s.fcol.clsCon &&& ~~~ v
                                   clsFat := s.fcol.clsFat &&& ~~~ v } }
  else s

/-- Offsets 0x02 to 0x07 of every block page and drawer. -/
def writeCommon (m : Master) (b : Fin 53) (o : Nat) (v : Word) (s : State) : State :=
  match o with
  | 2 => clearStatus b v s
  | 4 => s.modCom b fun c => { c with irqEn := v &&& irqEnMask b }
  | 5 => rearmErr b v s
  | 6 => s.modCom b fun c => cntFix c v
  | 7 => lockWrite b m v s
  | _ => s

/-! ### Stored words -/

/-- The write of a stored word; `ok`: its LK fields may be written. LK fields that may not set LKDROP (R48). -/
def writeStored (ok : Bool) (b : Fin 53) (p o : Nat) (i : RegInfo) (v : Word) (s : State) : State :=
  let old := s.reg p o
  let t := s.setReg p o (regFix p o old (mix old v (if ok then i.rw ||| i.lk else i.rw)))
  if !ok && decide (i.lk ≠ 0) then lkDrop b t else t

/-- An LK word with an action of its own. -/
def locked (ok : Bool) (b : Fin 53) (f : State → State) (s : State) : State := if ok then f s else lkDrop b s

/-- The life-cycle states in which coefficients may be written (R58, R452). -/
def State.calOpen (s : State) : Bool := decide (s.sec.life = .factory ∨ s.sec.life = .calibrated)

/-! ### Words with an action -/

/-- PS_EVT, CFG and CMD of a cell drawer; `pre`: the state before the commit. -/
def writeCell (n : Chan) (o : Nat) (v : Word) (pre s : State) : Option State :=
  match o with
  | 0x08 => some (cfgWrite n v (pre.cell n).seq.state s)
  | 0x0A => some (command n (fld v 0 3) s)
  | 0x51 => some (s.modPs n fun p => { p with evt := p.evt &&& ~~~ v })
  | _ => none

/-- SYS.PAIR_OVERRIDE and SYS.RSTCMD. -/
def writeSys (ok : Bool) (o : Nat) (v : Word) (s : State) : Option State :=
  match o with
  | 0x13 => some (locked ok bSys (pairOverride v) s)
  | 0x17 => some (locked ok bSys (fun s =>
      if fld v 16 16 = 0x5253 then allSafeRx { s with sys := { s.sys with rstReq := some (bit v 0) } } else s) s)
  | _ => none

/-- IRQ words: EOI acts for the host link alone (R286). -/
def writeIrq (m : Master) (o : Nat) (v : Word) (s : State) : Option State :=
  match o with
  | 0x09 => some (if m = .hostlink then eoi v s else s)
  | 0x0B => some (softset v s)
  | 0x0C => some (pendClear 0 v 0 s)
  | 0x0D => some (pendClear 1 v 0 s)
  | 0x0E => some (pendClear 2 v 0 s)
  | 0x0F => some (pendClear 3 v 0 s)
  | _ => none

/-- FCOL.CTRL, SHMAP, INJECT and the captures (R303, R325). -/
def writeFcol (ok : Bool) (o : Nat) (v : Word) (s : State) : Option State :=
  match o with
  | 0x01 => some (locked ok bFcol (fcolCtrl v) s)
  | 0x0F => some { s with fcol := { s.fcol with shmap := s.fcol.shmap &&& ~~~ v } }
  | 0x11 => some (locked (ok && decide (s.sec.life = .factory)) bFcol (fun s =>
      if fld v 29 2 = 3 then s else inject v (s.setReg 0x04 0x11 (v &&& 0x7FFC0000))) s)
  | 0x20 => some (rearmCapture .corrected v s)
  | 0x24 => some (rearmCapture .contained v s)
  | 0x28 => some (rearmCapture .fatal v s)
  | _ => none

/-- FIX.CMD and FIX.OVERRIDE. -/
def writeFix (ok : Bool) (o : Nat) (v : Word) (s : State) : Option State :=
  match o with
  | 0x0A => some (fixCmd v s)
  | 0x0B => some (locked ok bFix (fixOverride v) s)
  | _ => none

/-- IO24.CTRL and OVLRST; which pins are hot no frame carries: a free byte (log entry 3). -/
def writeIo24 (o : Nat) (v : Word) (s : State) : Option State :=
  match o with
  | 0x01 => some (if bit v 1 then saferel s else s)
  | 0x14 => some (let (w, s) := freeWord s; ovlrst v (w.setWidth 8) s)
  | _ => none

/-- MEM.MCMD and COLLMAP. -/
def writeMem (o : Nat) (v : Word) (s : State) : Option State :=
  match o with
  | 0x08 =>
    let s := if bit v 0 then marchGo s else s
    some (if bit v 1 then marchStop s else s)
  | 0x16 => some { s with memc := { s.memc with collmap := s.memc.collmap &&& ~~~ (v.setWidth 4) } }
  | _ => none

/-- The check unit of a CHK offset. -/
def chkUnit (o : Nat) : Option (Fin 2) := if 0x10 ≤ o ∧ o < 0x20 then some 0 else if 0x20 ≤ o ∧ o < 0x30 then some 1 else none

/-- EXPECT, SEQ and PORT of a check unit; writes to unit 1 in the boot window are discarded (R351). -/
def writeChk (o : Nat) (v : Word) (s : State) : Option State :=
  match chkUnit o with
  | none => none
  | some u =>
    if s.bootUnit u.val then some s
    else match o % 16 with
      | 0x7 => some (s.modUnit u fun x => { x with expect := v })
      | 0xA => some (s.modUnit u fun x => { x with seq := v })
      | 0xB => some (portWord u v s)
      | _ => none

/-- HRES_P and HRES_CTRL (R227). -/
def writeBench (o : Nat) (v : Word) (s : State) : Option State :=
  match o with
  | 0x13 => some { s with bench := { s.bench with thrlog := s.bench.thrlog &&& ~~~ v } }
  | 0x2D => some (if s.bench.granted then s else s.setReg 0x0B 0x2D v)
  | 0x2E => some (hresCtrl v (s.setReg 0x0B 0x2E (v &&& 7)))
  | _ => none

/-- HK.MBCMD, IMGPORT and IMGCTRL; a block through IMGPORT by a write of one word is discarded later (R274). -/
def writeHk (ok : Bool) (o : Nat) (v : Word) (s : State) : Option State :=
  match o with
  | 0x08 => some (locked ok bHk (mbcmd v) s)
  | 0x10 => some (imagePort false [v] s)
  | 0x12 => some (imgctrl v s)
  | _ => none

/-- Words with an action, by page; none where the page table gives the word an access code alone. -/
def writeAction (ok : Bool) (m : Master) (p o : Nat) (v : Word) (pre s : State) : Option State :=
  if h : 0x20 ≤ p ∧ p < 0x40 then writeCell ⟨p - 0x20, by omega⟩ o v pre s
  else match p with
  | 0x00 => writeSys ok o v s
  | 0x02 => if o = 0x09 then some { s with pwr := { s.pwr with nextEvent := v } } else none
  | 0x03 => writeIrq m o v s
  | 0x04 => writeFcol ok o v s
  | 0x06 =>
    if o = 0x0B then some { s with mgmt := { s.mgmt with alertSrc := s.mgmt.alertSrc &&& ~~~ (v.setWidth 7) } }
    else if decide (m = .mgmt) && decide (o = 0x01 ∨ o = 0x08 ∨ o = 0x0A) then some s
    else none
  | 0x07 => writeFix ok o v s
  | 0x08 => writeIo24 o v s
  | 0x09 => writeMem o v s
  | 0x0A => writeChk o v s
  | 0x0B => writeBench o v s
  | 0x0D => if o = 0x09 then some { s with rcp := { s.rcp with release := s.rcp.release ||| v } } else none
  | 0x0E => if o = 0x09 then some { s with log := { s.log with tailReq := some (v.setWidth 13) } } else none
  | 0x0F =>
    if o = 0x09 then some { s with cap := { s.cap with cdmap := s.cap.cdmap &&& ~~~ v } }
    else if o = 0x0A then some { s with cap := { s.cap with edmap := s.cap.edmap &&& ~~~ v } }
    else none
  | 0x10 =>
    if o = 0x09 then some (locked ok bSec (lccmd v) s)
    else if o = 0x0D then some (keyPort false ok [v] s)
    else none
  | 0x11 => writeHk ok o v s
  | _ => none

/-! ### What follows a stored word -/

/-- CHK.CTRL has been written: a unit that starts begins fresh, a unit that stops drops its pass and block (R347, R348). -/
def chkCtrl (was : Word) (u : Fin 2) (s : State) : State :=
  let on := bit (s.reg 0x0A 0x01) u.val
  if on = bit was u.val then s
  else s.modUnit u fun x => { x with busy := false, dirty := false, block := [], fresh := on || x.fresh }

/-- A configuration word of unit u has been written: CFG discards a pass, which repeats at once where the unit still
scrubs (R348); a new configuration or region starts its block and destination anew. -/
def chkConfig (u : Fin 2) (k : Nat) (s : State) : State :=
  if k = 0 then
    let s := if s.units[u.val].busy then discardPass u s else s
    let on := decide (s.unitMode u = 1)
    s.modUnit u fun x => { x with busy := x.busy && on, block := [], dest := 0 }
  else if k = 5 ∨ k = 6 then s.modUnit u fun x => { x with block := [], dest := 0 }
  else s

/-- LINK.CTRL has been written: the level a lost HGP channel presents may have changed (R26, R370). -/
def linkCtrl (old s : State) : State :=
  if (s.hgp false != old.hgp false && s.hgpWakes false) || (s.hgp true != old.hgp true && s.hgpWakes true) then
    wakeBy 5 0 s
  else s

/-- A configuration word of the broker has been written: CTRL.EN = 0 holds k_p at 1 (R239), the thresholds of k_v, V_OV, V_UV
and V_UVW act on the bus voltage as it stands (R224, R228, R232, R233, R242), the limits on PNET (R240). Until a command has
brought the filtered V_B nothing is compared with it. -/
def benchWritten (o : Nat) (s : State) : State :=
  if o = 0x01 then (if s.brokerEn then s else retrimAll { s with bench := { s.bench with kp := 65536 } })
  else if 0x23 ≤ o ∧ o < 0x26 ∨ o = 0x27 then
    match s.bench.vbf with
    | none => s
    | some vb => if o < 0x25 then retrimAll { s with bench := { s.bench with kv := s.kvOf vb } } else judgeVb vb s
  else if o = 0x26 then seeUvw s
  else if o = 0x20 ∨ o = 0x21 then
    raiseIf (bit (s.live bBench) 8) bBench 8 (raiseIf (bit (s.live bBench) 7) bBench 7 s)
  else s

/-- CAP.CTRL has been written: with EN = 0 no slot word is written, and the uses in progress end without a mark (R200; log
entry 79). -/
def capWritten (s : State) : State :=
  if s.capEn then s else { s with cap := { s.cap with uses := Vector.replicate 32 none } }

/-- A tuning word of channel n has been written: the reference is clamped again, burst operation may end, a fixed dead time
follows DTFIX. -/
def tuneWritten (n : Chan) (o : Nat) (s : State) : State :=
  if 0x20 ≤ o ∧ o < 0x24 then reclamp n s
  else if o = 0x40 then followDt n (leaveBurst n s)
  else if o = 0x44 then followDt n s
  else s

/-- What the write of a stored word brings about at once; `old`: the state before the word. -/
def afterStored (p o : Nat) (old s : State) : State :=
  match p with
  | 0x01 => if o = 0x01 then syncenWritten (bit (old.reg 0x01 0x01) 0) s else s
  | 0x03 => if 0x20 ≤ o ∧ o < 0x30 then prioLatches s else s
  | 0x05 => if o = 0x01 then linkCtrl old s else s
  | 0x07 => if o = 0x01 then fixDisable s else if o = 0x08 then seeClamp s else s
  | 0x08 => if h : 0x08 ≤ o ∧ o < 0x10 then pcfgWritten ⟨o - 0x08, by omega⟩ s else s
  | 0x0A =>
    if o = 0x01 then chkCtrl (old.reg 0x0A 0x01) 1 (chkCtrl (old.reg 0x0A 0x01) 0 s)
    else match chkUnit o with
      | some u => chkConfig u (o % 16) s
      | none => s
  | 0x0B => if s.reg 0x0B o = old.reg 0x0B o then s else benchWritten o s
  | 0x0C => if o = 0x01 then leafCtrlWritten s else s
  | 0x0F => if o = 0x01 then capWritten s else s
  | _ => if h : 0x20 ≤ p ∧ p < 0x40 then tuneWritten ⟨p - 0x20, by omega⟩ o s else s

/-! ### One word -/

/-- The LK fields of the word may be written: by the lock before the commit (R48, R50), always by the configuration image
(R438, `raw`), and for coefficients in the states of R58. -/
def State.lkOpen (s : State) (raw : Bool) (m : Master) (b : Fin 53) (o : Nat) (life : Life) : Bool :=
  (raw || s.openFor b m) &&
    (decide (b.val < 20 ∨ o < 0x30 ∨ 0x40 ≤ o) || decide (life = .factory ∨ life = .calibrated))

/-- A master's write of one word of a block page or drawer. -/
def writeBlock (raw : Bool) (m : Master) (b : Fin 53) (p o : Nat) (v : Word) (pre s : State) : State :=
  let ok := pre.lkOpen raw m b o s.sec.life
  if o = 2 ∨ (4 ≤ o ∧ o < 8) then writeCommon m b o v s
  else match writeAction ok m p o v pre s with
    | some t => t
    | none =>
      match regInfo p o with
      | some i => afterStored p o s (writeStored ok b p o i v s)
      | none => s

/-- A master's write of one word; `pre`: the state before the commit. Reserved pages and unassigned offsets ignore it
(R7, R40). -/
def writeWord (raw : Bool) (m : Master) (p o : Nat) (v : Word) (pre s : State) : State :=
  if 0x80 ≤ p ∧ p < 0xA0 then touchReg p o (s.putWord .r ((p - 0x80) * 1024 + 4 * o) v)
  else match pageBlk p with
    | some b => touchReg p o (writeBlock raw m b p o v pre s)
    | none => s

/-- The TIME word written at offset o among the words of one commit that starts at offset `first`. -/
def timeWord (first : Nat) (ws : List Word) (o : Nat) : Option Word := if first ≤ o then ws[o - first]? else none

/-- The turn of a word among those of one commit: W1C words, then stored words, then words whose action reads or updates
others, so that what hardware does because of the commit stays (R55, R292). That CMD and CFG see the frame's other words
is a choice (log entry 79). -/
def wordTurn (p o : Nat) : Nat :=
  if 0x80 ≤ p then 1
  else if o = 2 ∨ o = 5 ∨ o = 7 then 0
  else if 0x20 ≤ p then (if o = 0x51 then 0 else if o = 0x08 then 2 else if o = 0x0A then 3 else 1)
  else match p with
  | 0x00 => if o = 0x13 ∨ o = 0x17 then 2 else 1
  | 0x03 => if 0x0C ≤ o ∧ o < 0x10 then 0 else if o = 0x09 ∨ o = 0x0B then 2 else 1
  | 0x04 => if o = 0x0F ∨ o = 0x20 ∨ o = 0x24 ∨ o = 0x28 then 0 else if o = 0x01 ∨ o = 0x11 then 2 else 1
  | 0x06 => if o = 0x0B then 0 else 1
  | 0x07 => if o = 0x0A ∨ o = 0x0B then 2 else 1
  | 0x08 => if o = 0x01 ∨ o = 0x14 then 2 else 1
  | 0x09 => if o = 0x16 then 0 else if o = 0x08 then 2 else 1
  | 0x0A => if o % 16 = 0x0B then 2 else 1
  | 0x0B => if o = 0x13 then 0 else if o = 0x2E then 2 else 1
  | 0x0F => if o = 0x09 ∨ o = 0x0A then 0 else 1
  | 0x10 => if o = 0x09 ∨ o = 0x0D then 2 else 1
  | 0x11 => if o = 0x08 ∨ o = 0x10 ∨ o = 0x12 then 2 else 1
  | _ => 1

/-- What one master writes in one internal cycle: words to consecutive offsets of one page (R22, R51), or all of them to a port
register (R270). -/
structure Commit where
  m : Master
  page : Nat
  off : Nat
  ws : List Word
  port : Bool

/-- The words of a commit with their offsets; none of a port's. -/
def Commit.words (c : Commit) : List (Word × Nat) := if c.port then [] else c.ws.zipIdx c.off

/-- A write of one register word as a commit. -/
def oneWord (w : RegWrite) : Commit := ⟨w.m, w.page.toNat, w.off.toNat, [w.v], false⟩

/-- The port registers (R270). -/
def isPort (p o : Nat) : Bool :=
  decide ((p = 0x03 ∧ o = 0x09) ∨ (p = 0x11 ∧ o = 0x10) ∨ (p = 0x10 ∧ o = 0x0D) ∨ (p = 0x0A ∧ (o = 0x1B ∨ o = 0x2B)))

/-- The words handed to a port register in order (R270). `pre`: the state before the cycle, for LOCK (R50). -/
def writePort (m : Master) (p o : Nat) (ws : List Word) (pre s : State) : State :=
  touchReg p o (match p with
    | 0x03 => if m = .hostlink then ws.foldl (fun s v => eoi v s) s else s
    | 0x11 => imagePort true ws s
    | 0x10 => keyPort true (pre.openFor bSec m) ws s
    | _ => match chkUnit o with
      | some u => if s.bootUnit u.val then s else portWords u ws s
      | none => s)

/-- The words of one turn, in ascending offsets, or a port's; LOCK is judged on the state `pre` before the commit (R50). -/
def writeTurn (k : Nat) (c : Commit) (pre s : State) : State :=
  if c.port then (if wordTurn c.page c.off = k then writePort c.m c.page c.off c.ws pre s else s)
  else (c.words.filter fun w => decide (wordTurn c.page w.2 = k)).foldl (fun s w => writeWord false c.m c.page w.2 w.1 pre s) s

/-- LOSTCLR of block b counts n more lost clears, saturating at 255 (R292). -/
def lostClears (b : Fin 53) (n : Nat) (s : State) : State :=
  s.modCom b fun c => { c with lostClr := BitVec.ofNat 8 (min 255 (c.lostClr.toNat + n)) }

/-- The bits that the commits of a cycle write 1 at offset o of page p. -/
def onesWritten (p o : Nat) (cs : List Commit) : Word :=
  cs.foldl (fun v c => if c.page = p then (c.words.filter fun w => decide (w.2 = o)).foldl (fun v w => v ||| w.1) v else v) 0

/-- A STATUS bit or pulse latch that a word of the cycle's commits cleared and another set again counts as one lost clear
(R292). -/
def loseInCycle (cs : List Commit) (s : State) : State :=
  (cs.map (·.page)).eraseDups.foldl (fun s p => match pageBlk p with
    | none => s
    | some b =>
      let s := lostClears b (popCount (onesWritten p 2 cs &&& statusMask b &&& s.com[b.val].status)) s
      if p ≠ 0x03 then s
      else [0, 1, 2, 3].foldl (fun s w =>
        lostClears bIrq (popCount (onesWritten p (0x0C + w) cs &&& s.irq.latch.extractLsb' (32 * w) 32)) s) s) s

/-- The TIME words a commit writes load, or are refused, together (R376). -/
def loadTime (c : Commit) (s : State) : State :=
  if c.page = 0x01 then timeLoad (timeWord c.off c.ws 0x08) (timeWord c.off c.ws 0x09) s else s

/-- The order in which the fabric applies the writes of one cycle: the nine masters (R21). -/
def writeRank : Master → Nat
  | .hkcore => 0
  | .mgmt => 1
  | .hostlink => 2
  | .recipe => 3
  | .log => 4
  | .capt => 5
  | .march => 6
  | .check0 => 7
  | .check1 => 8
  | .none => 9

/-- The commits of one cycle by rank. -/
def insertCommit (c : Commit) : List Commit → List Commit
  | [] => [c]
  | x :: rest => if writeRank c.m < writeRank x.m then c :: x :: rest else x :: insertCommit c rest

/-- The master can write: the host link while its endpoint works, the core while it runs, the bus while its target serves
register writes, the engines in their domains (R20, R419, R437; log entry 96). -/
def State.acts (s : State) : Master → Bool
  | .hostlink => s.works dBarf
  | .hkcore => s.works dHk && !s.hk.restarting
  | .mgmt => decide (s.pwr.state ≠ .off) && decide (s.sys.stage ≠ 0xF0)
  | .capt => s.works dCapt
  | _ => s.coreOn

/-- A commit of the host link or of the management bus that covers words of the recipe table (R143). -/
def countEdition (c : Commit) (s : State) : State :=
  if 0x80 ≤ c.page ∧ c.page < 0xA0 ∧ (c.m = .hostlink ∨ c.m = .mgmt) then
    raiseBit bRcp 0 { s with rcp := { s.rcp with edition := s.rcp.edition + 1 } }
  else s

/-- What the masters that can write write in one internal cycle, in the order of R21: the value written last stays. The words
take their turns (`wordTurn`) together, on the state before the cycle where a rule asks for it: what a CMD or a CFG word finds of
the cycle's other words is the model's choice where R50 and R66 do not say (log entry 79). -/
def writeCycle (cs : List Commit) (s : State) : State :=
  let cs := (cs.filter fun c => s.acts c.m).foldl (fun l c => insertCommit c l) []
  let turn (k : Nat) (t : State) := cs.foldl (fun t c => writeTurn k c s t) t
  let t := turn 3 (turn 2 (turn 1 (turn 0 s)))
  let t := cs.foldl (fun t c => countEdition c t) (cs.foldl (fun t c => loadTime c t) t)
  loseInCycle cs t

/-- Words written to consecutive offsets in one commit (R51, R376). -/
def writeWords (m : Master) (p o : Nat) (ws : List Word) (s : State) : State := writeCycle [⟨m, p, o, ws, false⟩] s

/-- One word written in a commit of its own. -/
def writeOne (m : Master) (p o : Nat) (v : Word) (s : State) : State := writeWords m p o [v] s

/-- Words written to one address (R270, R424): to the port, else as one write of the last word. -/
def fifoCommit (m : Master) (p o : Nat) (ws : List Word) : Commit :=
  if isPort p o then ⟨m, p, o, ws, true⟩ else ⟨m, p, o, ws.getLast?.toList, false⟩

/-- Words written to one address in a commit of their own. -/
def writeFifo (m : Master) (p o : Nat) (ws : List Word) (s : State) : State := writeCycle [fifoCommit m p o ws] s

/-- CHECK_PORT; `coll`: the banks in which an owner's write met one of the unit's (R337). -/
def opCheckPort (m : Master) (u : Bool) (ws : List Word) (coll : BitVec 4) (s : State) : State :=
  if !s.acts m then s else collide coll (writeFifo m 0x0A (if u then 0x2B else 0x1B) ws s)

/-! ### Writes that meet other events of their cycle -/

/-- The write of PENDw meeting pulse events (R292). -/
def clearPend (m : Master) (w : Fin 4) (v events : Word) (s : State) : State :=
  if s.acts m then touchReg 0x03 (0x0C + w.val) (pendClear w v events s) else pendClear w 0 events s

/-- The offset of a capture's INFO word. -/
def infoOff : FClass → Nat
  | .corrected => 0x20
  | .contained => 0x24
  | .fatal => 0x28

/-- VALID written 1 in the cycle of reports: the capture takes the first of them (R303). -/
def opCaptureRearm (m : Master) (c : FClass) (rs : List Report) (s : State) : State :=
  opReports rs (writeOne m 0x04 (infoOff c) 0x80000000 s)

/-- ERR_CAP.VALID written 1 in the cycle of an error: ERR_CAP keeps it (R41). -/
def opErrRearm (m : Master) (b : Fin 53) (detail : Option (BitVec 23)) (s : State) : State :=
  let t := writeOne m (blkPage b) 0x05 0x00800000 s
  match detail with
  | some d => capErr b d t
  | none => t

/-- The TIME words one commit writes, either or both (R376). -/
def opTimeLoad (m : Master) (lo hi : Option Word) (s : State) : State :=
  if !s.acts m then s else
  let s := if lo.isSome then touchReg 0x01 0x08 s else s
  timeLoad lo hi (if hi.isSome then touchReg 0x01 0x09 s else s)

/-- OVLRST with the pins that are hot (R389). -/
def opOvlrst (m : Master) (v : Word) (hot : Byte) (s : State) : State :=
  if !s.acts m then s else touchReg 0x08 0x14 (ovlrst v hot s)

/-! ### STATUS meeting hardware sets (R292) -/

/-- Hardware sets STATUS bits of block b in the cycle of writes that clear the bits `v` of that word: the sets win, and each bit
whose clear is lost counts. -/
def loseClears (b : Fin 53) (v sets : Word) (s : State) : State :=
  lostClears b (popCount (v &&& sets &&& statusMask b)) (raise b (sets &&& statusMask b) s)

/-- Reports of the cycle latch after writes have cleared the bits `v` of FCOL.STATUS and the class bits: each STATUS bit that
they set again is a lost clear (R300, R292). -/
def reportsMeeting (v : Word) (rs : List Report) (s : State) : State :=
  let t := opReports rs s
  lostClears bFcol (popCount (v &&& (t.com[4].status &&& ~~~ s.com[4].status))) t

/-- The STATUS bits of page p that the commits of a cycle clear. -/
def statusClears (p : Nat) (cs : List Commit) : Word := onesWritten p 2 cs

/-- Hardware sets STATUS bit i of block b in the cycle of the commits `cs`. -/
def raiseMeeting (b : Fin 53) (i : Nat) (cs : List Commit) (s : State) : State :=
  loseClears b (statusClears (blkPage b) cs) (bitW i) s

/-- `collide` in the cycle of the commits `cs`. -/
def collideMeeting (c : BitVec 4) (cs : List Commit) (s : State) : State :=
  if c = 0 then s else raiseMeeting bMem 4 cs (collide c s)

/-- REGISTER_WRITE: the write `w` and other masters' writes of the same cycle, in the order of R21. Hardware sets of the STATUS of
w's page and reports of the cycle meet them (R292), and `coll` names the banks in which an owner's write met one of them
(R337). -/
def opRegWrite (w : RegWrite) (sets : Word) (rs : List Report) (also : List RegWrite) (coll : BitVec 4) (s : State) : State :=
  let p := w.page.toNat
  let ws := (w :: also).filter fun x => s.acts x.m
  let cs := ws.map oneWord
  let keep (x : RegWrite) : RegWrite :=
    if (pageBlk p).isSome ∧ p ≠ 0x04 ∧ x.page = w.page ∧ x.off = 2 then { x with v := x.v &&& ~~~ sets } else x
  let t := writeCycle (ws.map fun x => oneWord (keep x)) s
  let t := match pageBlk p with
    | some b => if p ≠ 0x04 ∧ cs.any (fun c => c.page = p ∧ c.off = 2) then loseClears b (statusClears p cs) sets t else t
    | none => t
  let t := if rs = [] then t else reportsMeeting (statusClears 0x04 cs) rs t
  if ws = [] then t else if p = 0x09 ∧ bit sets 4 then collide coll t else collideMeeting coll cs t

end Sys2Proof.Machine
end

