-- ==== Sys2Proof/Machine/Startup.lean ====
section
/-! DEFINITION. Reset and start-up: what survives a reset, the stages STRAPS to DOMAINS, the boot window and READY
(15_startup_and_lifecycle.md, R432 to R453; 11_memories_and_checks.md, R338). -/

namespace Sys2Proof.Machine

/-! ### Reset (R432) -/

/-- The registers of the store that sit in AON: ALARM, TRIM and CTRL.ALMEN (R377). -/
def aonRegs (s t : State) : State :=
  let t := ((t.setReg 0x01 0x0A (s.reg 0x01 0x0A)).setReg 0x01 0x0B (s.reg 0x01 0x0B)).setReg 0x01 0x0C (s.reg 0x01 0x0C)
  t.setReg 0x01 0x01 (setB (t.reg 0x01 0x01) 2 (bit (s.reg 0x01 0x01) 2))

/-- The AON fields of R377 in t as they are in s, with the conditions of the crystal and of VBAK. -/
def keepAon (s t : State) : State :=
  let t := aonRegs s t
  let t : State := { t with clk := { t.clk with
    sec := s.clk.sec, frac := s.clk.frac, win := s.clk.win, notLoaded := s.clk.notLoaded
    vbakLow := s.clk.vbakLow, rtcStop := s.clk.rtcStop } }
  t.modCom bClk fun c => { c with status := s.com[1].status &&& 0x70 }

/-- AON starts again: only the condition of VBAK stays; a crystal that still gives no edge is found so anew (R377). -/
def startAon (s t : State) : State := { t with clk := { t.clk with vbakLow := s.clk.vbakLow } }

/-- What no reset touches: the host die, which is no part of the field die (R15, R432), and a frame it has in progress, which
the field die then no longer serves; the commands that wait, NVM and what it holds, the bank contents (OFF alone loses them,
R328), NVPEND and the tamper detectors, and what the outside drives; L+ is measured anew (R393, R473). `sw`: the start-up
follows SYS.RSTCMD, with its WIN. -/
def resetKeeping (sw : Option Bool) (s : State) : State :=
  let r := State.reset
  { r with
      pending := s.pending, free := s.free, banks := s.banks
      sec := { r.sec with
        life := s.sec.life, pend := s.sec.pend, wipeCnt := s.sec.wipeCnt, trig := s.sec.trig, nvpend := s.sec.nvpend }
      sys := { r.sys with pairLog := s.sys.pairLog, pairTime := s.sys.pairTime, swRst := sw.isSome, winReq := sw.getD false }
      fix := { r.fix with ovrCnt := s.fix.ovrCnt }
      link := { r.link with sync := s.link.sync, estop := s.link.estop, hgp0 := s.link.hgp0, hgp1 := s.link.hgp1
                            hostUp := s.link.hostUp, fieldRefresh := !s.sup.vddaLow
                            aliveHeld := s.link.aliveHeld, hcsLow := s.link.hcsLow, mode3 := s.link.mode3
                            head := s.link.head, miso := s.link.miso, noAns := s.link.hcsLow }
      sup := s.sup
      mgmt := { r.mgmt with sclLow := s.mgmt.sclLow } }

/-- Reset: the state from which start-up begins (R432, R433). -/
def restart (aonKept : Bool) (sw : Option Bool) (s : State) : State :=
  let t := resetKeeping sw s
  if aonKept then keepAon s t else startAon s t

/-- POR: released after VDDIO has risen, out of OFF, which no SRAM bank survives (R328, R432, R478); the tamper detectors,
which do not work in OFF, start again (R354). -/
def opPor (aonKept : Bool) (s : State) : State := restart aonKept none (loseBanks { s with sec := { s.sec with trig := 0 } })

/-- RESET_PIN: pulses below 200 ns are ignored, those below 1 µs may or may not reset (R432, R487). -/
def opResetPin (lowNs : Nat) (s : State) : State :=
  if s.pwr.state = .off ∨ lowNs < 200 then s
  else if 1000 ≤ lowNs then restart true none s
  else
    let (b, s) := freeBit s
    if b then restart true none s else s

/-! ### Stages -/

def setStage (c : Byte) (s : State) : State := { s with sys := { s.sys with stage := c } }

/-- BOOTFLAGS bits set. -/
def bootFlag (i : Nat) (s : State) : State := { s with sys := { s.sys with flags := s.sys.flags ||| bitW i } }

/-- HALT (R437). -/
def halt (s : State) : State := setStage 0xF0 s

/-- An NVM report of start-up. -/
def bootNvm (c : FClass) (s : State) : State := blockErrorFree bNvm lNvm c none .none 0 s

/-- Stage STRAPS: an open strap reads 0 (R23, R414, R434, R453, R461). -/
def stageStraps (x : StartIn) (s : State) : State :=
  { s with sys := { s.sys with
    stage := 0x01, cid := x.cid &&& ~~~ x.cidOpen, madr := x.madr &&& ~~~ x.madrOpen
    flags := putB s.sys.swRst 8 ||| putB s.sys.winReq 9 } }

/-- Stage WIPE, with an erase pending (R355, R436, R451); false: HALT. The soft upsets of the start-up come with its later
stages, which read the same words. -/
def stageWipe (x : StartIn) (s : State) : Bool × State :=
  if !s.sec.nvpend then (true, s)
  else
    let s : State := setStage 0x02 { s with sec := { s.sec with erasing := true } }
    if 2 ≤ x.eraseFail then (false, bootNvm .fatal s)
    else
      let s := opEraseDone [] s
      (true, bootFlag 7 s)

/-- Entry j of the configuration image: its address word and its value. -/
def State.cfgEntry (s : State) (j : Nat) : Word × Word :=
  (s.mword .nvm (0x1010 + 8 * j), s.mword .nvm (0x1014 + 8 * j))

/-- An entry start-up skips (R438). -/
def cfgSkipped (a : Word) : Bool :=
  let p := fld a 8 8
  let o := fld a 0 8
  decide (fld a 16 16 ≠ 0) || (decide ((0x80 ≤ p ∧ p < 0xA0) = False) && (pageBlk p).isNone)
    || (decide (0x20 ≤ p ∧ p ≤ 0x40) && decide (0x30 ≤ o ∧ o < 0x40))
    || (decide (p = 0x04) && decide (o = 0x01 ∨ o = 0x11)) || (decide (p = 0x03) && decide (o = 0x08 ∨ o = 0x09))
    || (decide (p = 0x10) && decide (o = 0x09 ∨ o = 0x0D)) || (decide (p = 0x00) && decide (o = 0x13 ∨ o = 0x17))
    || (decide (p = 0x11) && decide (o = 0x08 ∨ o = 0x10 ∨ o = 0x12))

/-- The entry writes the recipe table. -/
def cfgRecipe (a : Word) : Bool := decide (0x80 ≤ fld a 8 8 ∧ fld a 8 8 < 0xA0)

/-- A one-word write by the boot ROM as HKCORE, LK fields open (R438). -/
def writeBoot (a v : Word) (s : State) : State :=
  let p := fld a 8 8
  let o := fld a 0 8
  let t := writeWord true .hkcore p o v s s
  if p = 0x01 then timeLoad (timeWord o [v] 0x08) (timeWord o [v] 0x09) t else t

/-- CFGSKIP counts. -/
def countSkip (s : State) : State := { s with sys := { s.sys with flags := satHi s.sys.flags } }

/-- The entries of the image. -/
def State.cfgEntries (s : State) : List (Word × Word) :=
  (List.range (fld (s.mword .nvm 0x1004) 0 16)).map s.cfgEntry

/-- The secure store reloads BANK-S from the secure partition (R328, R353); a word that cannot be read is loaded as 0, and
from an erased partition nothing is (R356; log entry 80). -/
def loadSecure (ups : List Upset) (s : State) : State :=
  let s := readNvm ups 0xE000 0x1000 .hkcore s
  let s : State := { s with banks := { s.banks.heal .s 0 0x1000 with s := [] } }
  if s.banks.nvm.any fun c => decide (0xE000 ≤ c.1 ∧ c.1 < 0xF000) then
    s.putWords .s 0 ((List.range 1024).map fun i =>
      if s.nvmGood (0xE000 + 4 * i) 4 then s.mword .nvm (0xE000 + 4 * i) else 0)
  else s

/-- Stage CONFIG: the image is checked; its entries outside the recipe table are applied (R436, R438). -/
def stageConfig (ups : List Upset) (s : State) : State :=
  let s := setStage 0x03 (loadSecure ups s)
  let s := readNvm ups 0x1000 (16 + 8 * min 1022 (fld (s.mword .nvm 0x1004) 0 16)) .hkcore s
  if s.configGood then
    let s : State := { s with sys := { s.sys with bootWait := fld (s.mword .nvm 0x1008) 0 16 } }
    s.cfgEntries.foldl (fun s e =>
      if cfgSkipped e.1 then countSkip s else if cfgRecipe e.1 then s else writeBoot e.1 e.2 s) s
  else bootNvm .contained (bootFlag 0 { s with sys := { s.sys with bootWait := 1000 } })

/-- BOOTHOLD of a good configuration image. -/
def State.bootHold (s : State) : Bool := s.configGood && bit (s.mword .nvm 0x1004) 31

/-- The recipe window entries, applied once the march has cleared BANK-R. -/
def stageRecipe (s : State) : State :=
  if s.configGood then
    s.cfgEntries.foldl (fun s e => if cfgRecipe e.1 && !cfgSkipped e.1 then writeBoot e.1 e.2 s else s) s
  else s

/-- A march failure of start-up in bank k: the bank's line, and MEM.ERR_CAP with a free address (log entry 3). -/
def marchReport (k : Nat) (s : State) : State :=
  let (w, s) := freeWord s
  let a := fld w 2 18 * 4 % bankSize (marchBank k)
  bankReport (s.bankLine (marchBank k) a) .contained (marchBank k) a .march .read (memErr 5 a s)

/-- Stage MARCH: the banks are zeroed and the failures recorded; false: HALT (R338, R436, R449). -/
def stageMarch (x : StartIn) (s : State) : Bool × State :=
  let s := setStage 0x04 s
  let s : State := { s with
    banks := { s.banks with r := [], l := [], c := [], h := [], bad := s.banks.bad.filter fun w => decide (w.1 = .s ∨ w.1 = .nvm) }
    memc := { s.memc with bootMarch := 0x80000000 ||| put x.marchFail.toNat 0 } }
  let bad (k : Nat) := x.marchFail.getLsbD k
  let s := if bad 0 || bad 1 || bad 2 then
      raiseBit bSys 0 { s with sys := { s.sys with march := true } } else s
  let s := if bad 0 then marchReport 0 s else s
  let s := if bad 1 then marchReport 1 s else s
  let s := if bad 2 then marchReport 2 s else s
  if bad 3 then (false, s) else (true, stageRecipe s)

/-- The boot window opens (R440). -/
def openWindow (s : State) : State :=
  let s := setStage 0x06 s
  { s with hk := { s.hk with imgOpen := true, imgEnded := false, badCnt := 0, nextBlk := 0, blocks := [] } }

/-- Stage HKLOAD: true where the boot window opens (R436, R439, R440; log entry 27). -/
def stageHkload (ups : List Upset) (s : State) : Bool × State :=
  let s := setStage 0x05 s
  let s := readNvm ups 0x3000 (16 + 4 * min 10236 (s.mword .nvm 0x3004).toNat) .hkcore s
  if s.patchBlank then (true, s)
  else if !s.patchValid then (true, bootNvm .contained (bootFlag 1 s))
  else if s.bootHold || s.sys.winReq then (true, s)
  else (false, takeUcode (s.mwords .nvm 0x3000 (4 + (s.mword .nvm 0x3004).toNat)) (takePatch s))

/-! ### Calibration load (R446, R447) -/

/-- The 16 words of calibration block n. -/
def State.calBlock (s : State) (n : Nat) : List Word := s.mwords .nvm (64 * n) 16

/-- The page of drawer n. -/
def drawerPage (n : Nat) : Nat := 0x20 + n

/-- The block is blank. -/
def calBlank (ws : List Word) : Bool := ws.all (· = 0xFFFFFFFF)

/-- The block's check value matches (R122). -/
def calGood (n : Nat) (ws : List Word) : Bool :=
  decide (ws[15]? = some (crc32 (ws.take 15) (BitVec.ofNat 32 (drawerPage n))))

/-- A seal is held and the partition's digest differs, or cannot be formed because a read failed (R356, R447). -/
def State.sealBroken (s : State) : Bool :=
  match s.secSeal with
  | none => false
  | some d => decide (sha256 (s.mbytes .nvm 0 0x1000) ≠ d) || !s.nvmGood 0 0x1000

/-- Block n fails: CALBAD and EN, or LEAFCAL and LEAF.CTRL.EN. -/
def calFails (n : Nat) (s : State) : State :=
  if n < 32 then
    let s := touchReg (drawerPage n) 0x01 (s.setReg (drawerPage n) 0x01 (s.reg (drawerPage n) 0x01 &&& ~~~ 1))
    { s with sys := { s.sys with calBad := s.sys.calBad ||| bitW n } }
  else bootFlag 6 (touchReg 0x0C 0x01 (s.setReg 0x0C 0x01 (s.reg 0x0C 0x01 &&& ~~~ 1)))

/-- Block n reaches its drawer. -/
def calTakes (n : Nat) (ws : List Word) (s : State) : State :=
  (ws.foldl (fun (a : Nat × State) v =>
    let p := drawerPage n
    (a.1 + 1, match regInfo p a.1 with
      | some i => touchReg p a.1 (a.2.setReg p a.1 (regFix p a.1 (a.2.reg p a.1) (v &&& i.lk)))
      | none => a.2)) (0x30, s)).2

/-- One block of the calibration load; one that cannot be read fails (R356). -/
def calBlockLoad (broken : Bool) (n : Nat) (s : State) : State :=
  let ws := s.calBlock n
  if broken then bootNvm .contained (calFails n s)
  else if calBlank ws then
    let s := calFails n s
    if s.sec.life = .factory then s else bootNvm .contained s
  else if calGood n ws && s.nvmGood (64 * n) 64 then calTakes n ws s
  else bootNvm .contained (calFails n s)

/-- Stage CALLOAD: the 33 blocks are read, and with a seal held the whole partition (R446, R447). -/
def stageCalload (ups : List Upset) (s : State) : State :=
  let s := setStage 0x07 s
  if s.sec.life = .blank then bootFlag 4 s
  else
    let s := readSecure ups 0x24 36 .hkcore s
    let s := readNvm ups 0 (if s.secSeal.isSome then 0x1000 else 0x840) .hkcore s
    let broken := s.sealBroken
    let s := if broken then bootFlag 5 s else s
    (List.range 33).foldl (fun s n => calBlockLoad broken n s) s

/-- Stage PAIRING (R449). -/
def stagePairing (ups : List Upset) (s : State) : State :=
  let s := setStage 0x08 s
  readPairing ups s

/-- Stage DOMAINS (R360, R436). -/
def stageDomains (fail : Byte) (s : State) : State :=
  (List.finRange 8).foldl (fun s d => if fail.getLsbD d.val then opDomainFail d s else s) (setStage 0x09 s)

/-- The stages after the image. -/
def stagesAfterImage (domFail : Byte) (ups : List Upset) (s : State) : State :=
  stageDomains domFail (stagePairing ups (stageCalload ups s))

/-- The stages from HKLOAD on; the boot window stops them. -/
def stagesFromHkload (domFail : Byte) (ups : List Upset) (s : State) : State :=
  match stageHkload ups s with
  | (true, t) => openWindow t
  | (false, t) => stagesAfterImage domFail ups t

/-- STARTUP: the stages run from RESET (R434). -/
def opStartup (x : StartIn) (s : State) : State :=
  if s.sys.stage ≠ 0 ∨ s.pwr.state = .off then s
  else
    let s := stageStraps x (upsets x.ups s)
    if x.testf then halt s
    else match stageWipe x s with
      | (false, t) => halt t
      | (true, t) => match stageMarch x (stageConfig x.ups t) with
        | (false, u) => halt u
        | (true, u) => stagesFromHkload x.domFail x.ups u

/-- STARTUP_READY: READY is reached; the fixture is read, and stops that hold act (R401, R428, R434), on the outputs' safe-value
latches too (log entry 96). -/
def opReady (s : State) : State :=
  if s.sys.stage ≠ 0x09 then s
  else
    let s := triggerSequence .plain (setStage 0x0A s)
    if s.estopBlocks then setSafeAll (allSafe s) else if s.fcol.failStop then setSafeAll s else s

/-! ### The boot window closes (R440, R351) -/

/-- Check unit 1 returns to its reset values. -/
def resetUnitOne (s : State) : State :=
  { s with units := s.units.set 1 .reset, regs := sparseDrop (regKey 0x0A 0x20) (regKey 0x0A 0x30) s.regs }

/-- The window closes: unit 1 is as after reset. A block accepted and not yet processed is dropped with it, uncounted, where the
manual is silent (log entry 97). -/
def closeWindow (s : State) : State :=
  let s := resetUnitOne s
  { s with hk := { s.hk with imgOpen := false, blocks := [] } }

/-- The image from the window is valid and fits (R439). -/
def State.hostImageValid (s : State) : Bool :=
  decide (4 ≤ 255 * s.hk.nextBlk) && s.imageValid .h 0 (255 * s.hk.nextBlk - 4)

/-- The image from the window is taken: HKHOST. -/
def takeHostImage (s : State) : State :=
  bootFlag 3 (takeUcode (s.mwords .h 0 (4 + (s.mword .h 4).toNat)) { s with
    hk := { s.hk with image := .host, bootCrc := none, imageLen := 4 + (s.mword .h 4).toNat }
    sys := { s.sys with verHk := (s.mword .h 8).setWidth 16 } })

/-- END has been written: the window closes, the image is taken or ROM runs alone, and start-up goes on with the upsets its
reads meet. -/
def windowEnds (domFail : Byte) (ups : List Upset) (s : State) : State :=
  if !s.hk.imgOpen || !s.hk.imgEnded then s
  else
    let s := upsets ups s
    let s := if s.hostImageValid then takeHostImage s else bootFlag 1 (romAlone s)
    stagesAfterImage domFail ups (closeWindow s)

/-- BOOTWAIT_TIMEOUT. -/
def opBootwait (domFail : Byte) (ups : List Upset) (s : State) : State :=
  if !s.hk.imgOpen || s.hk.imgEnded || decide (s.hk.nextBlk ≠ 0) || decide (s.sys.bootWait = 0) then s
  else stagesAfterImage domFail ups (closeWindow (romAlone (upsets ups s)))

/-! ### What a write may start -/

/-- Some SAFE ramp runs. -/
def State.anyRamp (s : State) : Bool := allChans.any fun n => (s.cell n).ps.ramp

/-- A software reset takes effect once every ramp has ended (R453; log entry 60). -/
def resetDue (s : State) : State :=
  match s.sys.rstReq with
  | some win => if s.anyRamp then s else restart true (some win) s
  | none => s

/-- After a write: a software reset, or the end of the boot window. -/
def finishWrite (domFail : Byte) (ups : List Upset) (s : State) : State := windowEnds domFail ups (resetDue s)

/-- A master's write of one register word, as a command of its own. -/
def regWrite (m : Master) (p o : Nat) (v : Word) (s : State) : State := finishWrite 0 [] (writeOne m p o v s)

/-- A command ends: what follows it at once, and the next state. -/
def done (s : State) : Host.Outcome State Fault Refusal := .next (settle s)

/-- `done` of a command that may end the ramp a software reset waits for. -/
def doneRamps (s : State) : Host.Outcome State Fault Refusal := done (resetDue s)

/-- TAMPER_PIN: the wipe and wake of R354; in HALT start-up follows (R437). -/
def opTamperPin (lowNs : Nat) (s : State) : State :=
  let t := opTamper lowNs s
  if decide (s.sys.stage = 0xF0) && decide (1000 ≤ lowNs) then restart true none t else t

end Sys2Proof.Machine
end

