-- ==== Sys2Proof/Machine/Link.lean ====
section
/-! DEFINITION. Jelefel frames: the status byte, selection of a response, acceptance in the order of R272, and what an
accepted frame does (08_host_link.md, R243 to R276). -/

namespace Sys2Proof.Machine

/-! ### Status byte and fillers (R248 to R251) -/

/-- The field die serves frames: BARF is on (R20, R434, R437), the device is in RUN or NAP, and neither enters a deeper
state nor wakes from such an entry (R251, R254). -/
def State.serves (s : State) : Bool :=
  decide (5 ≤ s.sys.stage ∧ s.sys.stage ≤ 0x0A) && s.coreOn
    && !s.pwr.failed.getLsbD dBarf && !s.pwr.deepAbort
    && !(s.pwr.entering && decide (s.pwr.chosen = .doze ∨ s.pwr.chosen = .sleep))

/-- Status byte (R248); FLT shows the level sent on FAULT#. -/
def State.statusByte (s : State) : Byte :=
  BitVec.ofNat 8 ((putB s.intN 7 ||| putB s.faultPin 6 ||| putB s.link.prevOk 5 ||| putB true 4 ||| putB s.rqFull 3
    ||| put (min s.readyCount 7) 0).toNat)

/-- MISO bytes 0 to 3 (R248). -/
def State.frameHead (s : State) : List Byte :=
  [s.statusByte, ~~~ s.statusByte, 0xA0#8 + s.sys.cid.setWidth 8, BitVec.ofNat 8 s.readyCount]

/-- The no-answer pattern (R250). -/
def noAnswer : List Byte := [0x00, 0xFF, 0x00, 0x00]

/-- A falling edge of HCS# (R244, R249 to R251); while VH is missing the host die forwards nothing. -/
def opHcsFall (mode3 : Bool) (s : State) : State :=
  if !s.link.hostUp || s.link.hcsLow then s
  else
    let head := if s.serves then s.frameHead else noAnswer
    wakeBy 1 0 { s with link := { s.link with hcsLow := true, mode3 := mode3, noAns := !s.serves, head := head } }

/-! ### Frames (R247) -/

def opPoll : Nat := 0
def opWrite : Nat := 1
def opReadReq : Nat := 2
def opReadFetch : Nat := 3
def opWriteFifo : Nat := 4
def opReadFifoReq : Nat := 5
def opReserved : Nat := 6
def opSync : Nat := 7

/-- H0 to H3. -/
def frameHeader (op : Nat) (f : FrameIn) : List Byte :=
  [BitVec.ofNat 8 (op * 32 + f.tag.toNat), f.page, f.off, f.len]

/-- Payload bytes of a frame. -/
def payloadLen (op : Nat) (f : FrameIn) : Nat := if op = 1 ∨ op = 4 then 4 * (f.len.toNat + 1) else 0

/-- The payload words. -/
def payloadWords (op : Nat) (f : FrameIn) : List Word := wordsBE (f.rest.take (payloadLen op f))

/-- The check value the frame carries. -/
def frameCheck (op : Nat) (f : FrameIn) : BitVec 16 := BitVec.ofNat 16 (beNat ((f.rest.drop (payloadLen op f)).take 2))

/-- The check value the device computes (R258, R259). -/
def State.frameCrc (s : State) (op : Nat) (f : FrameIn) : BitVec 16 :=
  linkCrc s.sys.cid false (if op = 7 then 0 else s.link.reqCnt) (frameHeader op f ++ f.rest.take (payloadLen op f))

/-! ### Selection of a response (R266) -/

/-- What a READ_FETCH is answered with. -/
inductive Pick where
  | response (r : Response)
  | late (r : Response)
  | err
  deriving DecidableEq, Repr

/-- The response of tag t among those the buffer holds. -/
def State.answer (s : State) (t : BitVec 5) : Pick :=
  if t = 0x1F then
    match s.link.buf.find? (·.ready), s.link.held, s.link.buf with
    | some r, _, _ => .response r
    | none, some r, _ => .response r
    | none, none, r :: _ => .late r
    | none, none, [] => .err
  else match s.entries.find? fun r => decide (r.tag = t) with
    | none => .err
    | some r => if r.ready then .response r else .late r

/-- The four header bytes and the data words of an answer (R267). -/
def answerParts (p : Pick) (t : BitVec 5) : List Byte × List Word :=
  match p with
  | .response r => ([BitVec.ofNat 8 ((if r.na then 128 else 0) + r.tag.toNat), r.page, r.off, r.len], r.data)
  | .late r => ([BitVec.ofNat 8 (32 + r.tag.toNat), r.page, r.off, 0], [0])
  | .err => ([BitVec.ofNat 8 (64 + t.toNat), 0, 0, 0], [0])

/-- The answer as MISO carries it: both copies of a response word failing complements the check value (R335). -/
def State.answerBytes (s : State) (p : Pick) (f : FrameIn) : List Byte :=
  let (h, ws) := answerParts p f.tag
  let bs := h ++ ws.flatMap bytesBE
  let c := linkCrc s.sys.cid true s.link.rspCnt bs
  let bad := match p with
    | .response _ => f.respFail
    | _ => false
  bs ++ natBE 2 (if bad then ~~~ c else c).toNat

/-- LEN byte of the answer's header. -/
def pickLen : Pick → Nat
  | .response r => r.len.toNat
  | _ => 0

/-- What MISO carries in a frame (R250, R253, R267). -/
def State.misoOf (s : State) (op : Nat) (f : FrameIn) : List Byte :=
  if f.short then (if f.marked then noAnswer else s.link.head)
  else
    let tail := if op = 3 && !f.marked && !s.link.noAns then s.answerBytes (s.answer f.tag) f else []
    (if f.marked then noAnswer else s.link.head) ++ (tail ++ List.replicate f.rest.length 0).take f.rest.length

/-! ### Acceptance (R272) -/

/-- Bytes after H3 that R247 asks for. -/
def State.restLen (s : State) (op : Nat) (f : FrameIn) : Nat :=
  if op = 3 then 6 + 4 * (pickLen (s.answer f.tag) + 1) else payloadLen op f + 2

/-- Conditions 1 to 8: the STATUS bit of the first that holds. -/
def State.firstError (s : State) (op : Nat) (f : FrameIn) : Option Nat :=
  if f.marked then some 8
  else if f.coding then some 11
  else if f.spare then some 1
  else if f.short then some 1
  else if f.rest.length < s.restLen op f then some 1
  else if s.restLen op f < f.rest.length then some 2
  else if f.stageFail then some 0
  else if frameCheck op f ≠ s.frameCrc op f then some 0
  else if op = 6 then some 7
  else if (op = 1 ∨ op = 2) ∧ 255 < f.off.toNat + f.len.toNat then some 3
  else none

/-- Conditions 9 to 11, with the held response released. -/
def State.lateError (s : State) (op : Nat) (f : FrameIn) (p : Pick) : Option Nat :=
  if op = 2 ∨ op = 5 then
    if s.entries.any fun r => decide (r.tag = f.tag) then some 6
    else if 32 ≤ s.entries.length ∨ s.freeWords < f.len.toNat + 1 then some 4
    else none
  else if op = 3 ∧ p = .err then some 5
  else none

/-- The frame delivers the response that is held. -/
def State.redelivers (s : State) (op : Nat) (p : Pick) : Bool :=
  match s.link.held, p with
  | some h, .response r => decide (op = 3) && decide (h.tag = r.tag)
  | _, _ => false

/-- The held response is released (R268). -/
def releaseHeld (s : State) : State := { s with link := { s.link with held := none } }

/-- The class of LINK.ERRTOT a discard counts in. -/
def countDiscard (i : Nat) (k : Link) : Link :=
  let sat (x : BitVec 16) : BitVec 16 := if x = 65535 then x else x + 1
  if i = 0 then { k with crcDisc := sat k.crcDisc } else { k with othDisc := sat k.othDisc }

/-- A frame that is not accepted: its STATUS bit, its count, its capture and its report (R272, R276); master and access
of the report are log entry 17. -/
def rejectFrame (op i : Nat) (s : State) : State :=
  let l : Line := if i = 11 then lBarrier else lHostlink
  let acc : Acc := if op = 1 ∨ op = 4 then .write else .read
  let s : State := raiseBit bLink i { s with link := { countDiscard i s.link with prevOk := false } }
  reports [⟨l, .corrected, none, .none, .hostlink, acc, false, i + 1, op⟩]
    (capErr bLink (BitVec.ofNat 23 ((i + 1) * 2 ^ 18 + op * 2 ^ 15 + s.link.reqCnt.toNat)) s)

/-! ### What an accepted frame does (R256) -/

/-- FRAMES, LASTFRM, PREV_OK and the request count (R260, R261). -/
def tallyFrame (op : Nat) (f : FrameIn) (s : State) : State :=
  let k := s.link
  { s with
    link := { k with
      frames := k.frames + 1, prevOk := true, reqCnt := if op = 7 then k.reqCnt else k.reqCnt + 1
      lastFrm := putB k.mode3 24 ||| put op 21 ||| put f.tag.toNat 16 ||| put f.page.toNat 8 ||| put f.off.toNat 0 }
    mgmt := { s.mgmt with idle := 0 } }

/-- The page belongs to the recipe table window. -/
def isRecipe (p : Byte) : Bool := decide (0x80 ≤ p.toNat ∧ p.toNat < 0xA0)

/-- One accepted frame that wrote all eight words of an entry clears its stale mark (R175). -/
def clearStale (f : FrameIn) (s : State) : State :=
  let lo := f.off.toNat
  let hi := lo + f.len.toNat
  let kept := (List.range 32).foldl (fun m e =>
    if lo ≤ 8 * e ∧ 8 * e + 7 ≤ hi then m &&& ~~~ (BitVec.ofNat 1024 1 <<< ((f.page.toNat - 0x80) * 32 + e)) else m)
    s.rcp.stale
  { s with rcp := { s.rcp with stale := kept } }

/-- An accepted WRITE: one commit at the HOSTLINK position of its cycle (R22, R51, R142, R143, R337). -/
def acceptWrite (f : FrameIn) (s : State) : State :=
  let cs := ⟨.hostlink, f.page.toNat, f.off.toNat, payloadWords 1 f, false⟩ :: f.also.map oneWord
  let s := writeCycle cs s
  let s := if isRecipe f.page then clearStale f s else s
  collideMeeting f.coll cs (if isRecipe f.page && f.race then raiseMeeting bRcp 2 cs s else s)

/-- An accepted WRITE_FIFO; outside the ports it acts as a WRITE of one word (R142, R270, R337). -/
def acceptWriteFifo (f : FrameIn) (s : State) : State :=
  let cs := fifoCommit .hostlink f.page.toNat f.off.toNat (payloadWords 4 f) :: f.also.map oneWord
  let s := writeCycle cs s
  collideMeeting f.coll cs (if isRecipe f.page && f.race then raiseMeeting bRcp 2 cs s else s)

/-- What a store of bytes in the link buffers writes to the word at byte address a of BANK-H; none: it does not reach it. -/
def State.linkStore (s : State) (bytes : List Byte) (a : Nat) : Option Word :=
  Config.linkWord bytes ((s.link.held.toList ++ s.link.buf).flatMap (·.data)) (s.mword .h a) a

/-- Bytes are stored among the n words of the link buffers from address a: which of these words they reach, and in what form, the
manual does not say, so a pass over any of them is taken to be met. A word that they reach has right parity from then on (R326,
R329, R335, R348; log entry 39). -/
def storeLink (bytes : List Byte) (a n : Nat) (s : State) : State :=
  let at' (i : Nat) := a + 4 * i
  let vs := (List.range n).flatMap fun i => bytesLE ((s.linkStore bytes (at' i)).getD (s.mword .h (at' i)))
  let right (w : Bank × Nat) : Bool := decide (w.1 = .h) && (List.range n).any fun i =>
    decide (at' i < w.2 + 4) && decide (w.2 < at' i + 4) && (s.linkStore bytes (at' i)).isSome
  let s := touchBank .h a (a + 4 * n) s
  let b := { s.banks with bad := s.banks.bad.filter fun w => !right w }
  { s with banks := b.put .h (sparsePutMany (bankBlank .h) a vs (s.banks.cells .h)) }

/-- A response is queued under its tag; every block is present on this member, so NA is 0 (R267). Its words are written to both
copies of the response buffer (R326, R335). -/
def queueResponse (f : FrameIn) (ws : List Word) (s : State) : State :=
  let s := storeLink (ws.flatMap bytesBE) 0x18000 4096 s
  { s with link := { s.link with buf := s.link.buf ++ [⟨f.tag, f.page, f.off, f.len, false, false, ws⟩] } }

/-- The word a read of one address takes from the snapshot of `seen`: IRQ.CLAIM claims (R14, R271). -/
def readOne (p o : Nat) (seen s : State) : Word × State :=
  if p = 0x03 ∧ o = 0x08 then
    let (w, t) := claim s
    (w, { t with irq := { t.irq with claimWord := w } })
  else (seen.readWord p o, s)

/-- The state the snapshot of an accepted frame shows: what stood before the frame's own cycle (R53), but the request count and
LASTFRM as the frame leaves them (LINK.COUNT and LINK.LASTFRM, 08_host_link.md). -/
def State.shownOf (old s : State) : State :=
  { old with link := { old.link with reqCnt := s.link.reqCnt, lastFrm := s.link.lastFrm } }

/-- The words of a READ_REQ, all of one snapshot of `seen`; with LEN = 0 a read of IRQ.CLAIM claims (R52, R257, R282). -/
def snapshot (p o n : Nat) (seen s : State) : List Word × State :=
  if n = 1 then
    let (w, t) := readOne p o seen s
    ([w], t)
  else (seen.readWords p o n, s)

/-- An accepted READ_REQ (R263); `old`: the state before its acceptance cycle (R53). -/
def acceptReadReq (f : FrameIn) (old s : State) : State :=
  let seen := upsets f.ups (old.shownOf s)
  let s := upsets f.ups s
  let words := s.windowWords f.page.toNat f.off.toNat (f.len.toNat + 1)
  let (ws, t) := snapshot f.page.toNat f.off.toNat (f.len.toNat + 1) seen s
  meetParity f.ups words .hostlink (queueResponse f ws t)

/-- An accepted READ_FIFO_REQ (R271); `old` as for `acceptReadReq`. -/
def acceptReadFifoReq (f : FrameIn) (old s : State) : State :=
  let seen := upsets f.ups (old.shownOf s)
  let s := upsets f.ups s
  let words := s.windowWords f.page.toNat f.off.toNat 1
  let (w, t) := readOne f.page.toNat f.off.toNat seen s
  meetParity f.ups words .hostlink (queueResponse f (List.replicate (f.len.toNat + 1) w) t)

/-- The response r is delivered: the response count advances and r is held; one whose copies both failed is released
(R268, R335). -/
def deliver (r : Response) (fail : Bool) (s : State) : State :=
  { s with link := { s.link with
    rspCnt := s.link.rspCnt + 1
    buf := s.link.buf.filter fun x => decide (x.tag ≠ r.tag)
    held := if fail then none else some r } }

/-- An accepted READ_FETCH. -/
def acceptFetch (p : Pick) (f : FrameIn) (s : State) : State :=
  match p with
  | .response r => deliver r f.respFail s
  | _ => s

/-- An accepted SYNC (R260, R262). -/
def acceptSync (s : State) : State :=
  let t := resetLink s
  raiseBit bLink 9 { t with link := { t.link with prevOk := true } }

/-- The effect of an accepted frame; `old`: the state before its acceptance cycle. -/
def acceptFrame (op : Nat) (f : FrameIn) (p : Pick) (old s : State) : State :=
  match op with
  | 1 => finishWrite 0 f.ups (acceptWrite f s)
  | 2 => acceptReadReq f old s
  | 3 => acceptFetch p f s
  | 4 => finishWrite 0 f.ups (acceptWriteFifo f s)
  | 5 => acceptReadFifoReq f old s
  | 7 => acceptSync s
  | _ => s

/-- A frame that is not accepted for condition i; where both copies of a staged word failed, BANK-H reports too (R335). -/
def discardFrame (op i : Nat) (f : FrameIn) (s : State) : State :=
  rejectFrame op i (if i = 0 && f.stageFail then linkWordLost .read s else s)

/-- Acceptance is decided (R255, R272); `p`: the answer selected, from the state before the frame. -/
def judgeFrame (op : Nat) (f : FrameIn) (p : Pick) (s : State) : State :=
  match s.firstError op f with
  | some i => discardFrame op i f s
  | none =>
    let t := if s.redelivers op p then s else releaseHeld s
    match t.lateError op f p with
    | some i => rejectFrame op i t
    | none => acceptFrame op f p s (tallyFrame op f t)

/-- What a READ_FETCH meets as it sends its answer: a LATE response sets LATE (R276), a response word that failed in both
copies reports (R330, R335). Both stand where the fetch is then not accepted, which the manual leaves open for LATE (log
entry 94). -/
def noteLate (op : Nat) (f : FrameIn) (p : Pick) (s : State) : State :=
  if op ≠ 3 ∨ f.marked ∨ f.short then s
  else match p with
  | .late _ => raiseBit bLink 10 s
  | .response _ => if f.respFail then linkWordLost .fetch s else s
  | .err => s

/-- The frame's bytes are staged, in both copies, and words that fail in their first copy alone are mended as they are read
(R326, R330, R335). -/
def stageFrame (op : Nat) (f : FrameIn) (s : State) : State :=
  let s := storeLink (frameHeader op f ++ f.rest) 0x1C000 512 s
  mendLink f.mends (if op = 3 then .fetch else .read) s

/-- The endpoint reads both copies of the response buffer's word at byte address a, where either has wrong parity and the word is
one of the response: it is taken from the good copy and rewritten, or lost where neither is good (R329, R330, R335). -/
def readCopies (a : Nat) (x : Bool × State) : Bool × State :=
  let (b, s) := freeBit x.2
  if !b then (x.1, s)
  else match s.badIn .h a (a + 4), s.badIn .h (a + 0x2000) (a + 0x2004) with
    | [], [] => (x.1, s)
    | w :: _, [] => (x.1, parityError .h w.2 .hostlink .fetch s)
    | [], w :: _ => (x.1, parityError .h w.2 .hostlink .fetch s)
    | w :: _, _ :: _ => (true, linkWordBad w.2 .fetch s)

/-- The words of the response buffer of wrong parity in either copy, by the address in the first. -/
def State.badResponse (s : State) : List Nat :=
  ((s.badIn .h 0x18000 0x1C000).map fun w => w.2 / 4 * 4 % 0x2000 + 0x18000).eraseDups

/-- A response is read from the buffer as it is sent: what it meets there, and whether a word of it is lost. Which words of the
buffer are the response's the manual does not say, so each of wrong parity is or is not, freely (R326; log entry 39). -/
def readResponse (op : Nat) (f : FrameIn) (s : State) : FrameIn × State :=
  if op ≠ 3 ∨ f.marked ∨ f.short then (f, s)
  else match s.answer f.tag with
  | .response _ =>
    let (lost, t) := s.badResponse.foldl (fun x a => readCopies a x) (false, s)
    ({ f with respFail := f.respFail || lost }, t)
  | _ => (f, s)

/-- HCS# rises (R255): a frame that the field die does not serve, at its start or by now, is discarded without an error (R251,
R254). -/
def endFrame (op : Nat) (f : FrameIn) (s : State) : State :=
  let p := s.answer f.tag
  if s.link.noAns || !s.works dBarf then
    { s with link := { s.link with hcsLow := false, miso := s.misoOf op f, prevOk := false } }
  else
    let (g, t) := readResponse op f s
    let t : State := { t with link := { t.link with hcsLow := false, miso := s.misoOf op g } }
    judgeFrame op g p (noteLate op f p (stageFrame op f t))

/-- A frame: from the falling edge of HCS#, where HCS_FALL has not brought it, to the rising edge. -/
def frame (op : Nat) (f : FrameIn) (s : State) : State :=
  if !s.link.hostUp then s else endFrame op f (opHcsFall s.link.mode3 s)

/-- RESPONSE_READY, while BARF works (R20): the oldest request whose response is not yet ready (R263). -/
def markReady : List Response → List Response
  | [] => []
  | r :: rest => if r.ready then r :: markReady rest else { r with ready := true } :: rest

def opResponseReady (s : State) : State :=
  if !s.works dBarf then s else { s with link := { s.link with buf := markReady s.link.buf } }

end Sys2Proof.Machine
end

