-- ==== Sys2Proof/Machine/Mgmt.lean ====
section
/-! DEFINITION. The management bus: transactions, PEC, the command set, the management stop and ALERT#
(14_management_bus.md, R412 to R431). -/

namespace Sys2Proof.Machine

/-! ### Transactions (R413 to R419) -/

/-- The target answers: CTRL.EN = 1 and the field die is not off (R415). -/
def State.mgmtOn (s : State) : Bool := bit (s.reg 0x06 0x01) 0 && decide (s.pwr.state ≠ .off)

/-- The commands served in HALT: IDENT and READ_REG (R437). -/
def State.mgmtServes (s : State) (code : Nat) : Bool :=
  s.mgmtOn && (decide (s.sys.stage ≠ 0xF0) || decide (code = 0x00 ∨ code = 0x30))

/-- A transaction addressed to the device wakes it and ends a stretch (R419). -/
def beginTx (s : State) : State :=
  wakeBy 2 0 { s with mgmt := { s.mgmt with ack := false, out := [], stretch := false, sclLow := false } }

/-- TXCNT counts a transaction at its STOP: after the snapshot of a read, in the cycle of a write's commit. -/
def countTx (s : State) : State := { s with mgmt := { s.mgmt with txCnt := satW s.mgmt.txCnt } }

/-- The device acknowledges nothing and sends nothing. -/
def noAck (s : State) : State := { s with mgmt := { s.mgmt with ack := false, out := [] } }

/-- A transaction with command code `code` runs `f`, which counts it; none is acknowledged in OFF or with CTRL.EN = 0 (R415). -/
def transaction (code : Nat) (f : State → State) (s : State) : State :=
  if !s.mgmtOn then noAck s
  else if s.mgmtServes code then f (beginTx s)
  else countTx (beginTx s)

/-- The address byte of a write or a read. -/
def State.addrByte (s : State) (read : Bool) : Byte := BitVec.ofNat 8 (2 * s.mgmtAddr + (if read then 1 else 0))

/-- PEC over the bytes of a transaction (R413). -/
def pec (bs : List Byte) : Byte := BitVec.ofNat 8 (crc pecP bs)

/-- The bytes a read returns: data and their PEC, after the bytes the controller wrote (R417). -/
def answerTx (code : Nat) (wrote data : List Byte) (s : State) : State :=
  let sent := [s.addrByte false, BitVec.ofNat 8 code] ++ wrote ++ [s.addrByte true] ++ data
  { s with mgmt := { s.mgmt with ack := true, out := data ++ [pec sent] } }

/-- Byte k that a read sends: 0xFF beyond the PEC (R417). -/
def State.txByte (s : State) (k : Nat) : Byte := s.mgmt.out.getD k 0xFF

/-- A block of data with its byte count (R413). -/
def blockOf (data : List Byte) : List Byte := BitVec.ofNat 8 data.length :: data

/-! ### Errors (R415 to R417, R431) -/

/-- A MGMT error: STATUS bit i, ERR_CAP and the report (R416, R417, R431). -/
def mgmtError (i code idx : Nat) (s : State) : State :=
  blockError bMgmt ((i + 1) * 2 ^ 19 + code * 2 ^ 8 + idx % 256) lMgmt .corrected none .none (i + 1) (raiseBit bMgmt i s)

/-- How the write part of a transaction ends. -/
inductive TxEnd where
  /-- complete, with whether its PEC matches; none: no PEC byte -/
  | complete (data : List Byte) (pec : Option Bool)
  /-- a byte breaks the length or value rules -/
  | bad
  /-- a protocol error at this byte -/
  | proto (idx : Nat)
  deriving DecidableEq, Repr

/-- The data bytes and a PEC of a write, judged byte by byte: `need`: the data bytes the protocol has; `rule`: the index
of the first byte that breaks a rule of the command. A byte past the PEC breaks the length rule; a PEC that does not match
ends the transaction, whatever follows it. -/
def State.judgeTx (s : State) (code : Nat) (t : MgmtTx) (need : Nat) (rule : List Byte → Option Nat) : TxEnd :=
  let all := t.data ++ t.pec.toList
  let data := all.take need
  let good := all[need]?.map fun p => decide (p = pec ([s.addrByte false, BitVec.ofNat 8 code] ++ data))
  let cut := match t.proto with
    | some k => if rule data = none ∧ good = some false ∧ need + 2 < k then none else some k
    | none => if all.length < need then some (all.length + 2) else none
  let bad := match rule data with
    | some j => some j
    | none => if need + 1 < all.length ∧ good = some true then some (need + 1) else none
  match bad, cut with
  | some j, some k => if j + 2 < k then .bad else .proto k
  | some _, none => .bad
  | none, some k => .proto k
  | none, none => .complete data good

/-- A write that is complete, under the PEC rules of R417. -/
def pecRule (code need : Nat) (p : Option Bool) (f : State → State) (s : State) : State :=
  match p with
  | some true => f { s with mgmt := { s.mgmt with ack := true } }
  | some false => mgmtError 1 code (need + 2) s
  | none => if bit (s.reg 0x06 0x08) 0 then raiseBit bMgmt 2 s else f { s with mgmt := { s.mgmt with ack := true } }

/-- A transaction whose command byte is not acknowledged sets BADCMD (R415); else `f`. -/
def acked (t : MgmtTx) (f : State → State) (s : State) : State := if t.nack then raiseBit bMgmt 4 (countTx s) else f s

/-- What other masters write in the cycle in which a write to the bus's own state commits (R21, R418; log
entry 96). -/
def alsoWrites (t : MgmtTx) (s : State) : State :=
  let cs := t.also.map oneWord
  collideMeeting t.coll cs (writeCycle cs s)

/-- What such a write leads to. -/
def finishAlso (t : MgmtTx) (s : State) : State := if t.also = [] then s else finishWrite 0 t.ups s

/-- A write transaction under R415 to R417. -/
def writeTx (code need : Nat) (rule : List Byte → Option Nat) (t : MgmtTx) (f : List Byte → State → State) (s : State) :
    State :=
  match s.judgeTx code t need rule with
  | .bad => raiseBit bMgmt 4 (countTx s)
  | .proto k => mgmtError 0 code k (countTx s)
  | .complete d p => pecRule code need p (f d) (countTx s)

/-! ### Summaries (R420, R421) -/

/-- The words of a summary, least significant byte first. -/
def wordsOut (ws : List Word) : List Byte := ws.flatMap bytesLE

/-- IDENT. -/
def State.identBytes (s : State) : List Byte :=
  wordsOut [s.readWord 0 8, s.readWord 0 9]
    ++ [BitVec.ofNat 8 (s.sys.cid.toNat * 16 + s.sys.madr.toNat), s.sys.stage]

/-- FAULTSUM. -/
def State.faultBytes (s : State) : List Byte :=
  wordsOut [s.readWord 4 2, s.readWord 4 9, s.readWord 4 0xA, s.readWord 4 0xC]

/-- The channel with the highest T, the lowest index on a tie. -/
def State.hottest (s : State) : Chan :=
  allChans.foldl (fun m n => if (s.cell m).pub.t.toInt < (s.cell n).pub.t.toInt then n else m) 0

/-- TEMPS. -/
def State.tempBytes (s : State) : List Byte :=
  let t := (s.cell s.hottest).pub.t
  wordsOut (s.readWords 0x0C 0x14 4) ++ (bytesLE t).take 2 ++ [BitVec.ofNat 8 s.hottest.val]

/-- BENCHSUM. -/
def State.benchBytes (s : State) : List Byte := wordsOut (s.readWords 0x0B 8 6)

/-- CHSTATE. -/
def State.stateBytes (s : State) : List Byte :=
  let c (k : Nat) := ((s.ch.toList.map fun x => x.seq.state.code).getD k 0) % 8
  (List.range 16).map fun j => BitVec.ofNat 8 (c (2 * j + 1) * 16 + c (2 * j))

/-- A read transaction that answers `data`, or breaks a rule (R415, R416). -/
def readTx (code : Nat) (data : State → List Byte) (e : Option TxFault) (s : State) : State :=
  transaction code (fun s => match e with
    | none => countTx (answerTx code [] (data s) s)
    | some .protocol => raiseBit bMgmt 4 (countTx s)
    | some (.proto k) => mgmtError 0 code k (countTx s)) s

/-- A Block Read of a summary. -/
def summary (code : Nat) (data : State → List Byte) (e : Option TxFault) (s : State) : State :=
  readTx code (fun s => blockOf (data s)) e s

/-! ### ALERT (R429, R430) -/

/-- Read Word to ALERT. -/
def opAlertRead (e : Option TxFault) (s : State) : State :=
  readTx 0x05 (fun s => (bytesLE (put s.mgmt.alertSrc.toNat 0)).take 2) e s

/-- W1C on ALERTSRC. -/
def clearAlerts (d : List Byte) (s : State) : State :=
  { s with mgmt := { s.mgmt with alertSrc := s.mgmt.alertSrc &&& ~~~ ((d.getD 0 0).setWidth 7) } }

/-- Write Word to ALERT. -/
def opAlertWrite (t : MgmtTx) (s : State) : State :=
  transaction 0x05 (acked t (writeTx 0x05 2 (fun _ => none) t fun d s =>
    finishAlso t (alsoWrites t (clearAlerts d s)))) s

/-- A read of the alert response address (R430), which is not acknowledged while ALERT# is released; `proto`: a START or STOP at
a wrong place, at this byte index (R416). No command code belongs to such a read: a free one stands in ERR_CAP (log entry 3). -/
def opAlertResponse (won : Bool) (proto : Option Nat) (s : State) : State :=
  if !s.mgmtServes 0x0C || !s.alert then noAck s
  else
    let s := wakeBy 2 0 { s with mgmt := { s.mgmt with ack := true, stretch := false, sclLow := false } }
    match proto with
    | some k =>
      let (w, s) := freeWord { s with mgmt := { s.mgmt with out := [] } }
      mgmtError 0 (fld w 0 8) k s
    | none =>
    if won then { s with mgmt := { s.mgmt with out := [s.addrByte false], araDone := true } }
    else { s with mgmt := { s.mgmt with out := [] } }

/-- HOSTIDLE: HLTO ms in RUN and NAP without an accepted frame (R429). -/
def opHostidle (s : State) : State :=
  if s.coreOn then { s with mgmt := { s.mgmt with idle := max s.mgmt.idle (s.regF 0x06 0x08 16 16) } } else s

/-! ### Management stop (R426 to R428) -/

/-- The latch sets. A command of the same cycle is refused by it (R428), and every channel enters SAFE after it (R163). -/
def setStop (t : MgmtTx) (s : State) : State :=
  let s : State := { s with mgmt := { s.mgmt with stop := true, ack := true } }
  setSafeAll (allSafe (raiseMeeting bMgmt 6 (t.also.map oneWord) (alsoWrites t s)))

/-- ESTOP Write Byte. -/
def stopWrite (t : MgmtTx) (s : State) : State :=
  match s.judgeTx 0x10 t 1 (fun d => if d.getD 0 0xA5 = 0xA5 ∨ d.getD 0 0xA5 = 0x5A then none else some 0) with
  | .bad => raiseBit bMgmt 4 s
  | .proto k => mgmtError 0 0x10 k s
  | .complete d p =>
    if p = some false then mgmtError 1 0x10 3 s
    else if d.getD 0 0 = 0xA5 then finishAlso t (setStop t s)
    else if p = none then raiseBit bMgmt 2 s
    else finishAlso t (alsoWrites t { s with mgmt := { s.mgmt with stop := false, ack := true } })

/-- ESTOP_SET and ESTOP_CLEAR. -/
def opStopWrite (t : MgmtTx) (s : State) : State := transaction 0x10 (acked t (fun s => stopWrite t (countTx s))) s

/-- ESTOP Read Byte. -/
def opStopRead (e : Option TxFault) (s : State) : State := readTx 0x10 (fun s => [if s.mgmt.stop then 1 else 0]) e s

/-! ### Register window (R422 to R425) -/

/-- A byte address from three data bytes. -/
def txAddr (d : List Byte) : Nat := (d.getD 0 0).toNat + 256 * (d.getD 1 0).toNat + 65536 * (d.getD 2 0).toNat

/-- Page and word offset of a byte address (R36). -/
def addrPage (a : Nat) : Nat := a / 1024 % 256
def addrOff (a : Nat) : Nat := a / 4 % 256

/-- The first byte of READ_REG's write part that breaks R422; byte 0 is the block count. -/
def readRule (d : List Byte) : Option Nat :=
  let a := txAddr (d.drop 1)
  let n := (d.getD 4 0).toNat
  if d.length = 0 then none
  else if d.getD 0 0 ≠ 4 then some 0
  else if d.length < 4 then none
  else if 2 ^ 18 ≤ a then some 3
  else if d.length < 5 then none
  else if n = 0 ∨ 252 < n ∨ (a + n - 1) / 1024 ≠ a / 1024 then some 4
  else none

/-- Byte j of the register window. -/
def State.windowByte (s : State) (a : Nat) : Byte := (bytesLE (s.readWord (addrPage a) (addrOff a))).getD (a % 4) 0

/-- How the write part of READ_REG ends: it has five bytes and no PEC, and a sixth breaks the length rule (R415, R422). -/
def readEnd (t : MgmtTx) : TxEnd :=
  let all := t.data ++ t.pec.toList
  let bad := (readRule (all.take 5)).orElse fun _ => if 5 < all.length then some 5 else none
  let cut := t.proto.orElse fun _ => if all.length < 5 then some (all.length + 2) else none
  match bad, cut with
  | some j, some k => if j + 2 < k then .bad else .proto k
  | some _, none => .bad
  | none, some k => .proto k
  | none, none => .complete all none

/-- READ_REG. -/
def readRegTx (t : MgmtTx) (s : State) : State :=
  match readEnd t with
  | .bad => raiseBit bMgmt 4 (countTx s)
  | .proto k => mgmtError 0 0x30 k (countTx s)
  | .complete d _ =>
    let a := txAddr (d.drop 1)
    let n := (d.getD 4 0).toNat
    let s := upsets t.ups s
    let words := s.windowWords (addrPage a) (addrOff a) ((a % 4 + n + 3) / 4)
    let out := (List.range n).map fun i => s.windowByte (a + i)
    meetParity t.ups words .mgmt (countTx (answerTx 0x30 d (blockOf out) s))

def opReadReg (t : MgmtTx) (s : State) : State := transaction 0x30 (acked t (readRegTx t)) s

/-- The data bytes a register write has, its block count included. -/
def writeNeed (t : MgmtTx) : Nat := 1 + ((t.data ++ t.pec.toList).getD 0 7).toNat

/-- The first byte of WRITE_REG or WRITE_PORT that breaks R423 or R424: `words`: the words that must lie in A's page. -/
def writeRule (port : Bool) (d : List Byte) : Option Nat :=
  let n := (d.getD 0 0).toNat
  let a := txAddr (d.drop 1)
  let words := if port then 1 else (n - 3) / 4
  if d.length = 0 then none
  else if n < 7 ∨ n % 4 ≠ 3 then some 0
  else if d.length < 2 then none
  else if a % 4 ≠ 0 then some 1
  else if d.length < 4 then none
  else if 2 ^ 18 ≤ a ∨ 255 < addrOff a + words - 1 then some 3
  else none

/-- The words of a register write. -/
def txWords (d : List Byte) : List Word := wordsLE (d.drop 4)

/-- The commit of WRITE_REG, at the MGMT position of its cycle (R21, R418, R423). -/
def commitWrite (t : MgmtTx) (d : List Byte) (s : State) : State :=
  let a := txAddr (d.drop 1)
  let cs := ⟨.mgmt, addrPage a, addrOff a, txWords d, false⟩ :: t.also.map oneWord
  finishWrite 0 t.ups (collideMeeting t.coll cs (writeCycle cs s))

/-- The commit of WRITE_PORT (R424). -/
def commitPort (t : MgmtTx) (d : List Byte) (s : State) : State :=
  let a := txAddr (d.drop 1)
  let cs := fifoCommit .mgmt (addrPage a) (addrOff a) (txWords d) :: t.also.map oneWord
  finishWrite 0 t.ups (collideMeeting t.coll cs (writeCycle cs s))

/-- A register write: with WREN = 0 every byte is acknowledged and nothing is written (R425). -/
def regWriteTx (code : Nat) (t : MgmtTx) (commit : MgmtTx → List Byte → State → State) (s : State) : State :=
  if bit (s.reg 0x06 0x08) 1 then writeTx code (writeNeed t) (writeRule (decide (code = 0x32))) t (commit t) s
  else match s.judgeTx code t (max (writeNeed t) (t.data ++ t.pec.toList).length) (fun _ => none) with
    | .proto k => mgmtError 0 code k (countTx s)
    | _ => raiseBit bMgmt 5 (countTx { s with mgmt := { s.mgmt with ack := true } })

def opWriteReg (t : MgmtTx) (s : State) : State := transaction 0x31 (acked t (regWriteTx 0x31 t commitWrite)) s
def opWritePort (t : MgmtTx) (s : State) : State := transaction 0x32 (acked t (regWriteTx 0x32 t commitPort)) s

/-! ### Address match, timeout, release -/

/-- MGMT_ADDRESS_MATCH (R419): `ara`: the alert response address, acknowledged only while ALERT# is asserted. -/
def opAddressMatch (ara : Bool) (s : State) : State :=
  if !s.mgmtOn || (ara && !s.alert) then s
  else
    let stretch := s.asleep
    let s := wakeBy 2 0 s
    { s with mgmt := { s.mgmt with stretch := stretch, sclLow := false } }

/-- MGMT_TIMEOUT (R413, R416): the transaction is discarded; `code`, `idx`: its command code and the byte in which SCL stayed
low (R431). -/
def opMgmtTimeout (code idx : Byte) (s : State) : State :=
  let s : State := { s with mgmt := { s.mgmt with sclLow := true } }
  if !s.mgmtOn then s else mgmtError 3 code.toNat idx.toNat (resetMgmt s)

/-- SCL_RELEASE: SCL is high again (R419, R431). -/
def opSclRelease (s : State) : State := { s with mgmt := { s.mgmt with stretch := false, sclLow := false } }

end Sys2Proof.Machine
end

