-- ==== Sys2Proof/Machine/ExecBench.lean ====
section
/-! DEFINITION. The BENCH bus and the broker: BENCH_SENSE_MISMATCH to HRES_CANCEL, and BENCH_UVW_END. -/

namespace Sys2Proof.Machine

/-- BENCH_SENSE_MISMATCH (R214). -/
def execBenchSenseMismatch (s : State) : Host.Outcome State Fault Refusal := done (opSense s)

/-- BENCH_OV (R232). -/
def execBenchOv (vb : Int) (s : State) : Host.Outcome State Fault Refusal := done (opBenchOv vb s)

/-- BENCH_OV_PERSIST (R232). -/
def execBenchOvPersist (vb : Int) (s : State) : Host.Outcome State Fault Refusal := done (opOvPersist vb s)

/-- BENCH_UV (R233). -/
def execBenchUv (vb : Int) (s : State) : Host.Outcome State Fault Refusal := done (opBenchUv vb s)

/-- BENCH_UVW (R224). -/
def execBenchUvw (s : State) : Host.Outcome State Fault Refusal := done (opUvw s)

/-- VOLTAGE_THROTTLE (R228). -/
def execVoltageThrottle (vb : Int) (s : State) : Host.Outcome State Fault Refusal := done (opThrottle vb s)

/-- QSTALL (R225). -/
def execQstall (e : Drawer) (s : State) : Host.Outcome State Fault Refusal :=
  done (noteStalls (fun x => decide (x.idx = e)) s)

/-- BDEM_UPDATE (R234). -/
def execBdemUpdate (s : State) : Host.Outcome State Fault Refusal := done (opBdem s)

/-- HRES_REQ (R227). -/
def execHresReq (m : Master) (v : Word) (s : State) : Host.Outcome State Fault Refusal :=
  done (regWrite m 0x0B 0x2E v s)

/-- HRES_CANCEL (R227). -/
def execHresCancel (m : Master) (v : Word) (s : State) : Host.Outcome State Fault Refusal :=
  done (regWrite m 0x0B 0x2E v s)

/-- BENCH_UVW_END (R224). -/
def execBenchUvwEnd (s : State) : Host.Outcome State Fault Refusal := done (opUvwEnd s)

end Sys2Proof.Machine
end

