-- ==== Sys2Proof/Machine/ExecFault.lean ====
section
/-! DEFINITION. Fault collection and locks: ERROR_REPORT to LOCK_AUTO_CLOSE. -/

namespace Sys2Proof.Machine

/-- ERROR_REPORT (R300). -/
def execErrorReport (rs : List Report) (s : State) : Host.Outcome State Fault Refusal := done (opReports rs s)

/-- REACTION_END (R313). -/
def execReactionEnd (nested timeout : Bool) (s : State) : Host.Outcome State Fault Refusal :=
  doneRamps (opReactionEnd nested timeout s)

/-- SHADOW_END (R321). -/
def execShadowEnd (nested : Bool) (present : List (Line × Option Chan × Nat)) (s : State) :
    Host.Outcome State Fault Refusal :=
  done (opShadowEnd nested present s)

/-- ERR_WINDOW_EXPIRE (R306, R308). -/
def execErrWindowExpire (b : Fin 53) (s : State) : Host.Outcome State Fault Refusal := done (opWindowExpire b s)

/-- FSNOW (R314). -/
def execFsnow (m : Master) (v : Word) (s : State) : Host.Outcome State Fault Refusal :=
  done (regWrite m 0x04 0x01 v s)

/-- FSEXIT (R316). -/
def execFsexit (m : Master) (v : Word) (s : State) : Host.Outcome State Fault Refusal :=
  done (regWrite m 0x04 0x01 v s)

/-- INJECT (R325). -/
def execInject (m : Master) (v : Word) (s : State) : Host.Outcome State Fault Refusal :=
  done (regWrite m 0x04 0x11 v s)

/-- COLLECTOR_SELF_CHECK_FAIL (R324). -/
def execCollectorSelfCheckFail (code : Fin 3) (s : State) : Host.Outcome State Fault Refusal :=
  done (opSelfCheck code s)

/-- CAPTURE_REARM (R303), meeting the reports of its cycle. -/
def execCaptureRearm (m : Master) (c : FClass) (rs : List Report) (s : State) : Host.Outcome State Fault Refusal :=
  done (opCaptureRearm m c rs s)

/-- ERR_CAP_REARM (R41), meeting an error of its cycle. -/
def execErrCapRearm (m : Master) (b : Fin 53) (detail : Option (BitVec 23)) (s : State) : Host.Outcome State Fault Refusal :=
  done (opErrRearm m b detail s)

/-- ALIVE_TOGGLE (R317). -/
def execAliveToggle (s : State) : Host.Outcome State Fault Refusal := done (opAlive s)

/-- LOCK_OPEN (R45, R47, R48). -/
def execLockOpen (m : Master) (b : Fin 53) (v : Word) (s : State) : Host.Outcome State Fault Refusal :=
  done (regWrite m (blkPage b) 0x07 v s)

/-- LOCK_CLOSE (R46, R47). -/
def execLockClose (m : Master) (b : Fin 53) (v : Word) (s : State) : Host.Outcome State Fault Refusal :=
  done (regWrite m (blkPage b) 0x07 v s)

/-- LOCK_AUTO_CLOSE (R49). -/
def execLockAutoClose (b : Fin 53) (s : State) : Host.Outcome State Fault Refusal := done (opLockAutoClose b s)

end Sys2Proof.Machine
end

