-- ==== Sys2Proof/Machine/ExecField.lean ====
section
/-! DEFINITION. IO24 and the fixture port: IO24_EDGE to FIXTURE_BUS_STUCK. -/

namespace Sys2Proof.Machine

/-- IO24_EDGE (R384, R385): comparator levels of one pin, one each 10 µs. -/
def execIo24Edge (k : Fin 8) (raw : List Bool) (s : State) : Host.Outcome State Fault Refusal :=
  done (opIoEdge k raw s)

/-- PCFG_WRITE (R384). -/
def execPcfgWrite (m : Master) (k : Fin 8) (v : Word) (s : State) : Host.Outcome State Fault Refusal :=
  done (regWrite m 0x08 (0x08 + k.val) v s)

/-- IO24_WIRE_BREAK (R387). -/
def execIo24WireBreak (k : Fin 8) (gone : Bool) (s : State) : Host.Outcome State Fault Refusal :=
  done (opWireBreak k gone s)

/-- IO24_OVERLOAD (R389). -/
def execIo24Overload (k : Fin 8) (thermal : Bool) (s : State) : Host.Outcome State Fault Refusal :=
  done (opOverload k thermal s)

/-- OVLRST (R389): `hot`: pins at or above the restart temperature. -/
def execOvlrst (m : Master) (v : Word) (hot : Byte) (s : State) : Host.Outcome State Fault Refusal :=
  done (opOvlrst m v hot s)

/-- SAFEREL (R392). -/
def execSaferel (m : Master) (v : Word) (s : State) : Host.Outcome State Fault Refusal :=
  done (regWrite m 0x08 0x01 v s)

/-- LP_MISSING (R386, R393). -/
def execLpMissing (s : State) : Host.Outcome State Fault Refusal := done (opLpMissing s)

/-- LP_RETURN (R386). -/
def execLpReturn (s : State) : Host.Outcome State Fault Refusal := done (opLpReturn s)

/-- LP_LOW (R393). -/
def execLpLow (s : State) : Host.Outcome State Fault Refusal := done (opLpLow s)

/-- REREAD (R401). -/
def execReread (m : Master) (v : Word) (s : State) : Host.Outcome State Fault Refusal :=
  done (regWrite m 0x07 0x0A v s)

/-- CLAMP_CLOSE (R401). -/
def execClampClose (s : State) : Host.Outcome State Fault Refusal := done (opClampClose s)

/-- FIXTURE_SEQUENCE (R401). -/
def execFixtureSequence (x : TagIn) (s : State) : Host.Outcome State Fault Refusal := done (opSequence x s)

/-- FIXTURE_SEQUENCE_END (R402). -/
def execFixtureSequenceEnd (s : State) : Host.Outcome State Fault Refusal := done (opSequenceEnd s)

/-- CLAMP_OPEN (R403). -/
def execClampOpen (s : State) : Host.Outcome State Fault Refusal := done (opClampOpen s)

/-- OVERRIDE (R406). -/
def execOverride (m : Master) (v : Word) (s : State) : Host.Outcome State Fault Refusal :=
  done (regWrite m 0x07 0x0B v s)

/-- ARB_RETRY (R409). -/
def execArbRetry (s : State) : Host.Outcome State Fault Refusal := done (opArbRetry s)

/-- FIXTURE_BUS_STUCK (R409). -/
def execFixtureBusStuck (freed : Bool) (losses : Option Byte) (s : State) : Host.Outcome State Fault Refusal :=
  done (opBusStuck freed losses s)

end Sys2Proof.Machine
end

