-- ==== Sys2Proof/Machine/ExecIrq.lean ====
section
/-! DEFINITION. The interrupt controller: CLAIM to MASK_WRITE. -/

namespace Sys2Proof.Machine

/-- CLAIM by the host link (R282 to R284, R292). -/
def execClaim (events : List (Fin 128)) (s : State) : Host.Outcome State Fault Refusal := done (opClaim events s)

/-- EOI (R286). -/
def execEoi (m : Master) (v : Word) (s : State) : Host.Outcome State Fault Refusal := done (regWrite m 0x03 0x09 v s)

/-- SOFTSET (R278). -/
def execSoftset (m : Master) (v : Word) (s : State) : Host.Outcome State Fault Refusal :=
  done (regWrite m 0x03 0x0B v s)

/-- PEND_CLEAR (R278, R292), meeting the pulse events of its cycle. -/
def execPendClear (m : Master) (w : Fin 4) (v events : Word) (s : State) : Host.Outcome State Fault Refusal :=
  done (clearPend m w v events s)

/-- GIE_WRITE (R290). -/
def execGieWrite (m : Master) (v : Word) (s : State) : Host.Outcome State Fault Refusal :=
  done (regWrite m 0x03 0x01 v s)

/-- PRIO_WRITE (R279, R293). -/
def execPrioWrite (m : Master) (w : Fin 16) (v : Word) (s : State) : Host.Outcome State Fault Refusal :=
  done (regWrite m 0x03 (0x20 + w.val) v s)

/-- MASK_WRITE (R291). -/
def execMaskWrite (m : Master) (w : Fin 4) (v : Word) (s : State) : Host.Outcome State Fault Refusal :=
  done (regWrite m 0x03 (0x10 + w.val) v s)

end Sys2Proof.Machine
end

