-- ==== Sys2Proof/Machine/ExecLeaf.lean ====
section
/-! DEFINITION. The LEAF channel: VISIT_START to LEAF_EN_CLEAR. -/

namespace Sys2Proof.Machine

/-- VISIT_START (R124, R130). -/
def execVisitStart (s : State) : Host.Outcome State Fault Refusal := done (opVisitStart s)

/-- SUBSTITUTION_START (R125). -/
def execSubstitutionStart (s : State) : Host.Outcome State Fault Refusal := done (opSubstitution s)

/-- REFERENCE_PHASE (R124). -/
def execReferencePhase (s : State) : Host.Outcome State Fault Refusal := done (opReference s)

/-- OVERLAP_OUT (R126, R127). -/
def execOverlapOut (s : State) : Host.Outcome State Fault Refusal := done (opOverlapOut s)

/-- STANDIN_END (R124). -/
def execStandinEnd (x : Fresh) (s : State) : Host.Outcome State Fault Refusal := done (opStandinEnd x s)

/-- VISIT_END (R128). -/
def execVisitEnd (s : State) : Host.Outcome State Fault Refusal := done (opVisitEnd s)

/-- BLEND_DONE (R129). -/
def execBlendDone (n : Chan) (x : Fresh) (s : State) : Host.Outcome State Fault Refusal := done (opBlendDone n x s)

/-- SELF_SLOT_START (R135). -/
def execSelfSlotStart (s : State) : Host.Outcome State Fault Refusal := done (opSelfStart s)

/-- SELF_SLOT_END (R135 to R137). -/
def execSelfSlotEnd (vrefx : Int) (s : State) : Host.Outcome State Fault Refusal := done (opSelfEnd vrefx s)

/-- LEAF_ERROR (R134). -/
def execLeafError (x : Fresh) (s : State) : Host.Outcome State Fault Refusal := doneRamps (opLeafError x s)

/-- LEAF_AGED (R131). -/
def execLeafAged (n : Chan) (s : State) : Host.Outcome State Fault Refusal := done (opAged n s)

/-- LEAF_EN_CLEAR (R133): the other bits of CTRL are written as they stand. -/
def execLeafEnClear (m : Master) (s : State) : Host.Outcome State Fault Refusal :=
  done (regWrite m 0x0C 0x01 (s.reg 0x0C 0x01 &&& 2) s)

end Sys2Proof.Machine
end

