-- ==== Sys2Proof/Machine/ExecLevel.lean ====
section
/-! DEFINITION. SYNC, ESTOP#, HGP and the supplies: SYNC_EDGE to VDDP_UV_CLEAR. -/

namespace Sys2Proof.Machine

/-- SYNC_EDGE (R116). -/
def execSyncEdge (offsetNs trim : Int) (s : State) : Host.Outcome State Fault Refusal := done (opSyncEdge offsetNs trim s)

/-- SYNC_ACQUIRED (R116). -/
def execSyncAcquired (offsetNs trim : Int) (s : State) : Host.Outcome State Fault Refusal :=
  done (opSyncAcquired offsetNs trim s)

/-- SYNC_LOST (R117). -/
def execSyncLost (s : State) : Host.Outcome State Fault Refusal := done (opSyncLost s)

/-- ESTOP_ASSERT (R30). -/
def execEstopAssert (s : State) : Host.Outcome State Fault Refusal := done (opEstopAssert s)

/-- ESTOP_DEASSERT (R30). -/
def execEstopDeassert (s : State) : Host.Outcome State Fault Refusal := done (opEstopDeassert s)

/-- HGP_LEVEL_CHANGE (R158, R370). -/
def execHgpLevelChange (one level : Bool) (s : State) : Host.Outcome State Fault Refusal :=
  done (opHgpChange one level s)

/-- LEVEL_REFRESH_LOSS (R26, R29). -/
def execLevelRefreshLoss (ch : LevelIn) (s : State) : Host.Outcome State Fault Refusal := done (opRefreshLoss ch s)

/-- LEVEL_REFRESH_RETURN (R28). -/
def execLevelRefreshReturn (ch : LevelIn) (level : Bool) (s : State) : Host.Outcome State Fault Refusal :=
  done (opRefreshReturn ch level s)

/-- FIELD_SUPPLY_LOSS (R31, R478). -/
def execFieldSupplyLoss (vdda : Bool) (s : State) : Host.Outcome State Fault Refusal := done (opFieldLoss vdda s)

/-- HOST_SUPPLY_LOSS (R32). -/
def execHostSupplyLoss (s : State) : Host.Outcome State Fault Refusal := done (opHostLoss s)

/-- VDDP_UV (R94). -/
def execVddpUv (s : State) : Host.Outcome State Fault Refusal := doneRamps (opVddpUv s)

/-- VDDP_UV_CLEAR (R94). -/
def execVddpUvClear (s : State) : Host.Outcome State Fault Refusal := done (opVddpClear s)

end Sys2Proof.Machine
end

