-- ==== Sys2Proof/Machine/ExecLink.lean ====
section
/-! DEFINITION. Jelefel frames: HCS_FALL to RESPONSE_READY. -/

namespace Sys2Proof.Machine

/-- HCS_FALL (R244, R249, R251). -/
def execHcsFall (mode3 : Bool) (s : State) : Host.Outcome State Fault Refusal := done (opHcsFall mode3 s)

/-- POLL (R247). -/
def execPoll (f : FrameIn) (s : State) : Host.Outcome State Fault Refusal := done (frame opPoll f s)

/-- WRITE (R256). -/
def execWrite (f : FrameIn) (s : State) : Host.Outcome State Fault Refusal := done (frame opWrite f s)

/-- READ_REQ (R263). -/
def execReadReq (f : FrameIn) (s : State) : Host.Outcome State Fault Refusal := done (frame opReadReq f s)

/-- READ_FETCH (R266 to R269). -/
def execReadFetch (f : FrameIn) (s : State) : Host.Outcome State Fault Refusal := done (frame opReadFetch f s)

/-- WRITE_FIFO (R270). -/
def execWriteFifo (f : FrameIn) (s : State) : Host.Outcome State Fault Refusal := done (frame opWriteFifo f s)

/-- READ_FIFO_REQ (R271). -/
def execReadFifoReq (f : FrameIn) (s : State) : Host.Outcome State Fault Refusal := done (frame opReadFifoReq f s)

/-- SYNC (R260, R262). -/
def execSync (f : FrameIn) (s : State) : Host.Outcome State Fault Refusal := done (frame opSync f s)

/-- RESERVED_OP (R272). -/
def execReservedOp (f : FrameIn) (s : State) : Host.Outcome State Fault Refusal := done (frame opReserved f s)

/-- RESPONSE_READY (R263). -/
def execResponseReady (s : State) : Host.Outcome State Fault Refusal := done (opResponseReady s)

end Sys2Proof.Machine
end

