-- ==== Sys2Proof/Machine/ExecMem.lean ====
section
/-! DEFINITION. Memory banks, march engine and check units: LOG_SLOT_REBUILD to CHECK_PORT. -/

namespace Sys2Proof.Machine

/-- LOG_SLOT_REBUILD (R332, R336). -/
def execLogSlotRebuild (slot : Fin 8192) (ups : List Upset) (s : State) : Host.Outcome State Fault Refusal :=
  done (opSlotRebuild slot ups s)

/-- HK_GROUP_RELOAD (R334, R336). -/
def execHkGroupReload (addr : Nat) (ups : List Upset) (s : State) : Host.Outcome State Fault Refusal :=
  done (opGroupReload addr ups s)

/-- MARCH_GO (R339). -/
def execMarchGo (m : Master) (s : State) : Host.Outcome State Fault Refusal := done (regWrite m 0x09 0x08 1 s)

/-- MARCH_STOP (R344). -/
def execMarchStop (m : Master) (s : State) : Host.Outcome State Fault Refusal := done (regWrite m 0x09 0x08 2 s)

/-- MARCH_GROUP (R339 to R344). -/
def execMarchGroup (x : GroupIn) (s : State) : Host.Outcome State Fault Refusal := done (opMarchGroup x s)

/-- CHECK_PASS_START (R347). -/
def execCheckPassStart (u : Bool) (s : State) : Host.Outcome State Fault Refusal := done (opPassStart (unitNo u) s)

/-- CHECK_PASS_END (R348, R349). -/
def execCheckPassEnd (u : Bool) (ups : List Upset) (s : State) : Host.Outcome State Fault Refusal :=
  done (opPassEnd (unitNo u) ups s)

/-- CHECK_PORT (R337, R350, R351). -/
def execCheckPort (m : Master) (u : Bool) (words : List Word) (coll : BitVec 4) (s : State) :
    Host.Outcome State Fault Refusal :=
  done (opCheckPort m u words coll s)

end Sys2Proof.Machine
end

