-- ==== Sys2Proof/Machine/ExecMgmt.lean ====
section
/-! DEFINITION. The management bus: MGMT_ADDRESS_MATCH to WRITE_PORT, and SCL_RELEASE. -/

namespace Sys2Proof.Machine

/-- MGMT_ADDRESS_MATCH (R419). -/
def execMgmtAddressMatch (ara : Bool) (s : State) : Host.Outcome State Fault Refusal := done (opAddressMatch ara s)

/-- MGMT_TIMEOUT (R413, R416). -/
def execMgmtTimeout (code idx : Byte) (s : State) : Host.Outcome State Fault Refusal := done (opMgmtTimeout code idx s)

/-- IDENT (R421). -/
def execIdent (e : Option TxFault) (s : State) : Host.Outcome State Fault Refusal := done (summary 0x00 State.identBytes e s)

/-- FAULTSUM (R421). -/
def execFaultsum (e : Option TxFault) (s : State) : Host.Outcome State Fault Refusal := done (summary 0x01 State.faultBytes e s)

/-- TEMPS (R421). -/
def execTemps (e : Option TxFault) (s : State) : Host.Outcome State Fault Refusal := done (summary 0x02 State.tempBytes e s)

/-- BENCHSUM (R421). -/
def execBenchsum (e : Option TxFault) (s : State) : Host.Outcome State Fault Refusal := done (summary 0x03 State.benchBytes e s)

/-- CHSTATE (R421). -/
def execChstate (e : Option TxFault) (s : State) : Host.Outcome State Fault Refusal := done (summary 0x04 State.stateBytes e s)

/-- ALERT_READ (R429). -/
def execAlertRead (e : Option TxFault) (s : State) : Host.Outcome State Fault Refusal := done (opAlertRead e s)

/-- ALERT_WRITE (R429). -/
def execAlertWrite (t : MgmtTx) (s : State) : Host.Outcome State Fault Refusal := done (opAlertWrite t s)

/-- ALERT_RESPONSE (R430). -/
def execAlertResponse (won : Bool) (proto : Option Nat) (s : State) : Host.Outcome State Fault Refusal :=
  done (opAlertResponse won proto s)

/-- HOSTIDLE (R429). -/
def execHostidle (s : State) : Host.Outcome State Fault Refusal := done (opHostidle s)

/-- ESTOP_SET (R426 to R428). -/
def execEstopSet (t : MgmtTx) (s : State) : Host.Outcome State Fault Refusal := done (opStopWrite t s)

/-- ESTOP_CLEAR (R426, R427). -/
def execEstopClear (t : MgmtTx) (s : State) : Host.Outcome State Fault Refusal := done (opStopWrite t s)

/-- ESTOP_READ (R426). -/
def execEstopRead (e : Option TxFault) (s : State) : Host.Outcome State Fault Refusal := done (opStopRead e s)

/-- READ_REG (R422). -/
def execReadReg (t : MgmtTx) (s : State) : Host.Outcome State Fault Refusal := done (opReadReg t s)

/-- WRITE_REG (R423, R425). -/
def execWriteReg (t : MgmtTx) (s : State) : Host.Outcome State Fault Refusal := done (opWriteReg t s)

/-- WRITE_PORT (R424, R425). -/
def execWritePort (t : MgmtTx) (s : State) : Host.Outcome State Fault Refusal := done (opWritePort t s)

/-- SCL_RELEASE (R419). -/
def execSclRelease (s : State) : Host.Outcome State Fault Refusal := done (opSclRelease s)

end Sys2Proof.Machine
end

