-- ==== Sys2Proof/Machine/ExecPower.lean ====
section
/-! DEFINITION. Domains, power states, clock and calendar: DOMAIN_FAIL to CALENDAR_TICK, PLL_RELOCK and RTC_CRYSTAL_RETURN. -/

namespace Sys2Proof.Machine

/-- DOMAIN_FAIL (R360). -/
def execDomainFail (d : Fin 8) (s : State) : Host.Outcome State Fault Refusal := done (opDomainFail d s)

/-- POWER_STATE_ENTERED (R361, R363). -/
def execPowerStateEntered (s : State) : Host.Outcome State Fault Refusal := done (opEntered s)

/-- ENTRY_ABORT (R367). -/
def execEntryAbort (cause : Fin 16) (pin : Fin 8) (s : State) : Host.Outcome State Fault Refusal :=
  done (opAbort cause pin s)

/-- EVENT_TIMER_WAKE (R366). -/
def execEventTimerWake (s : State) : Host.Outcome State Fault Refusal := done (opTimerWake s)

/-- NEXT_EVENT_EXPIRE (R365). -/
def execNextEventExpire (s : State) : Host.Outcome State Fault Refusal := done (opNextExpire s)

/-- IO24_WAKE (R370). -/
def execIo24Wake (k : Fin 8) (s : State) : Host.Outcome State Fault Refusal := done (opIoWake k s)

/-- WAKE_DONE (R366, R371). -/
def execWakeDone (elapsedMs periods : Nat) (late : Bool) (s : State) : Host.Outcome State Fault Refusal :=
  done (opWakeDone elapsedMs periods late s)

/-- DWELL_END (R368). -/
def execDwellEnd (s : State) : Host.Outcome State Fault Refusal := done (opDwellEnd s)

/-- PLLUNLOCK (R373). -/
def execPllunlock (s : State) : Host.Outcome State Fault Refusal := done (opPllUnlock s)

/-- XTALFAIL (R373). -/
def execXtalfail (s : State) : Host.Outcome State Fault Refusal := done (opXtalFail s)

/-- VBAKLOW (R377). -/
def execVbaklow (low : Bool) (s : State) : Host.Outcome State Fault Refusal := done (opVbakLow low s)

/-- RTCSTOP (R377). -/
def execRtcstop (s : State) : Host.Outcome State Fault Refusal := done (opRtcStop s)

/-- TIME_LOAD (R376). -/
def execTimeLoad (m : Master) (lo hi : Option Word) (s : State) : Host.Outcome State Fault Refusal :=
  done (opTimeLoad m lo hi s)

/-- SYNCEN_WRITE (R372). -/
def execSyncenWrite (m : Master) (v : Word) (s : State) : Host.Outcome State Fault Refusal :=
  done (regWrite m 0x01 0x01 v s)

/-- CALENDAR_ALARM (R378): the calendar has counted `periods`. -/
def execCalendarAlarm (periods : Nat) (s : State) : Host.Outcome State Fault Refusal := done (countCalendar periods s)

/-- CALENDAR_TICK (R379): the calendar has counted `periods`. -/
def execCalendarTick (periods : Nat) (s : State) : Host.Outcome State Fault Refusal := done (countCalendar periods s)

/-- PLL_RELOCK (R373). -/
def execPllRelock (s : State) : Host.Outcome State Fault Refusal := done (opPllRelock s)

/-- RTC_CRYSTAL_RETURN (R377). -/
def execRtcCrystalReturn (s : State) : Host.Outcome State Fault Refusal := done (opRtcReturn s)

end Sys2Proof.Machine
end

