-- ==== Sys2Proof/Machine/ExecRest.lean ====
section
/-! DEFINITION. REGISTER_WRITE, the ends of current ramps and pulses, and the return of the supplies. -/

namespace Sys2Proof.Machine

/-- REGISTER_WRITE (R13, R21, R40, R48, R292, R300, R337): `sets`: STATUS bits that hardware sets in the same cycle. -/
def execRegisterWrite (w : RegWrite) (sets : Word) (rs : List Report) (also : List RegWrite) (coll : BitVec 4) (s : State) :
    Host.Outcome State Fault Refusal :=
  done (finishWrite 0 [] (opRegWrite w sets rs also coll s))

/-- CURRENT_RAMP_TO_ZERO_END (R164). -/
def execCurrentRampToZeroEnd (n : Chan) (s : State) : Host.Outcome State Fault Refusal := done (opZeroEnd n s)

/-- DCIR_PULSE_END (R145). -/
def execDcirPulseEnd (n : Chan) (x : Fresh) (s : State) : Host.Outcome State Fault Refusal := done (opPulseEnd n x s)

/-- FIELD_SUPPLY_RETURN (R31). -/
def execFieldSupplyReturn (s : State) : Host.Outcome State Fault Refusal := done (opFieldReturn s)

/-- HOST_SUPPLY_RETURN (R32). -/
def execHostSupplyReturn (s : State) : Host.Outcome State Fault Refusal := done (opHostReturn s)

end Sys2Proof.Machine
end

