-- ==== Sys2Proof/Machine/ExecSec.lean ====
section
/-! DEFINITION. Secure store, life-cycle, mailbox and core: KEYPORT to DIETEMP_SAMPLE. -/

namespace Sys2Proof.Machine

/-- KEYPORT (R353). -/
def execKeyport (m : Master) (words : List Word) (s : State) : Host.Outcome State Fault Refusal :=
  done (writeFifo m 0x10 0x0D words s)

/-- TAMPER_PIN (R354, R437, R463). -/
def execTamperPin (lowNs : Nat) (s : State) : Host.Outcome State Fault Refusal := done (opTamperPin lowNs s)

/-- VOLTAGE_GLITCH (R354): the rule is one for VDDIO and VDDA. -/
def execVoltageGlitch (vdda : Bool) (permille : Int) (ns : Nat) (s : State) : Host.Outcome State Fault Refusal :=
  done (opSupplyGlitch vdda permille ns s)

/-- TEMP_TAMPER (R354). -/
def execTempTamper (t : Int) (s : State) : Host.Outcome State Fault Refusal := done (opTempTamper t s)

/-- SECURE_ERASE_DONE (R355, R451). -/
def execSecureEraseDone (ups : List Upset) (s : State) : Host.Outcome State Fault Refusal := done (opEraseDone ups s)

/-- LCCMD (R451). -/
def execLccmd (m : Master) (v : Word) (s : State) : Host.Outcome State Fault Refusal :=
  done (regWrite m 0x10 0x09 v s)

/-- PAIR_OVERRIDE (R450). -/
def execPairOverride (m : Master) (v : Word) (s : State) : Host.Outcome State Fault Refusal :=
  done (regWrite m 0x00 0x13 v s)

/-- ERASE: a write of MBCMD = 1 (R444). -/
def execErase (m : Master) (s : State) : Host.Outcome State Fault Refusal := done (regWrite m 0x11 0x08 1 s)

/-- PROG: a write of MBCMD = 2 (R444). -/
def execProg (m : Master) (s : State) : Host.Outcome State Fault Refusal := done (regWrite m 0x11 0x08 2 s)

/-- SEAL: a write of MBCMD = 3 (R447). -/
def execSeal (m : Master) (s : State) : Host.Outcome State Fault Refusal := done (regWrite m 0x11 0x08 3 s)

/-- CFGCHK: a write of MBCMD = 4 (R444). -/
def execCfgchk (m : Master) (s : State) : Host.Outcome State Fault Refusal := done (regWrite m 0x11 0x08 4 s)

/-- MAILBOX_DONE (R444, R454). -/
def execMailboxDone (nvmOk : Bool) (ups : List Upset) (s : State) : Host.Outcome State Fault Refusal :=
  done (opMailboxDone nvmOk ups s)

/-- HK_RESTART_DONE (R441). -/
def execHkRestartDone (ups : List Upset) (s : State) : Host.Outcome State Fault Refusal := done (opRestartDone ups s)

/-- WATCHDOG_MISS (R442). -/
def execWatchdogMiss (s : State) : Host.Outcome State Fault Refusal := done (opWatchdog s)

/-- DIETEMP_SAMPLE (R443). -/
def execDietempSample (t : Int) (s : State) : Host.Outcome State Fault Refusal := done (opDieTemp t s)

end Sys2Proof.Machine
end

