-- ==== Sys2Proof/Machine/ExecSeq.lean ====
section
/-! DEFINITION. Channel commands, the measurement frame and the events of a running step: ARM to RANGE_SWITCH_DONE. -/

namespace Sys2Proof.Machine

/-- ARM: a write of CMD = 7 (R160, R161). -/
def execArm (m : Master) (n : Drawer) (s : State) : Host.Outcome State Fault Refusal :=
  done (regWrite m (drawerPage n) 0x0A 7 s)

/-- START: a write of CMD = 1 (R162). -/
def execStart (m : Master) (n : Drawer) (s : State) : Host.Outcome State Fault Refusal :=
  done (regWrite m (drawerPage n) 0x0A 1 s)

/-- STOP: a write of CMD = 2 (R165). -/
def execStop (m : Master) (n : Drawer) (s : State) : Host.Outcome State Fault Refusal :=
  done (regWrite m (drawerPage n) 0x0A 2 s)

/-- PAUSE: a write of CMD = 3 (R164). -/
def execPause (m : Master) (n : Drawer) (s : State) : Host.Outcome State Fault Refusal :=
  done (regWrite m (drawerPage n) 0x0A 3 s)

/-- RESUME: a write of CMD = 4 (R170). -/
def execResume (m : Master) (n : Drawer) (s : State) : Host.Outcome State Fault Refusal :=
  done (regWrite m (drawerPage n) 0x0A 4 s)

/-- SAFE: a write of CMD = 5 (R98). -/
def execSafe (m : Master) (n : Drawer) (s : State) : Host.Outcome State Fault Refusal :=
  done (regWrite m (drawerPage n) 0x0A 5 s)

/-- CLEAR: a write of CMD = 6 (R160). -/
def execClear (m : Master) (n : Drawer) (s : State) : Host.Outcome State Fault Refusal :=
  done (regWrite m (drawerPage n) 0x0A 6 s)

/-- SAFE_RAMP_END (R98). -/
def execSafeRampEnd (n : Chan) (s : State) : Host.Outcome State Fault Refusal := doneRamps (endRamp n s)

/-- CFG_WRITE (R66, R67). -/
def execCfgWrite (m : Master) (n : Drawer) (v : Word) (s : State) : Host.Outcome State Fault Refusal :=
  done (regWrite m (drawerPage n) 0x08 v s)

/-- FRAME_END (R57, R167). -/
def execFrameEnd (x : MeasIn) (s : State) : Host.Outcome State Fault Refusal := doneRamps (opFrameEnd x s)

/-- STEPTIME (R166, R171). -/
def execSteptime (n : Chan) (s : State) : Host.Outcome State Fault Refusal := done (opSteptime n s)

/-- RECORD_READABLE (R196). -/
def execRecordReadable (s : State) : Host.Outcome State Fault Refusal := done (readableOne s)

/-- PULSE_LEVEL_CHANGE (R145). -/
def execPulseLevelChange (n : Chan) (x : Fresh) (s : State) : Host.Outcome State Fault Refusal := done (opPulse n x s)

/-- CCCV_CV_PHASE (R145). -/
def execCccvCvPhase (n : Chan) (s : State) : Host.Outcome State Fault Refusal := done (opCvPhase n s)

/-- DCIR_PULSE_EDGE (R145, R201). -/
def execDcirPulseEdge (n : Chan) (x : Fresh) (s : State) : Host.Outcome State Fault Refusal :=
  done (opPulseEdge n x s)

/-- DCIR_RESULT (R202, R203). -/
def execDcirResult (n : Chan) (second : Bool) (x : Fresh) (s : State) : Host.Outcome State Fault Refusal :=
  done (opDcirResult n second x s)

/-- DCIR_COMPLETE (R145). -/
def execDcirComplete (n : Chan) (x : Fresh) (s : State) : Host.Outcome State Fault Refusal := done (opDcirComplete n x s)

/-- EIS_POINT_END (R206 to R208). -/
def execEisPointEnd (n : Chan) (x : Fresh) (ups : List Upset) (s : State) : Host.Outcome State Fault Refusal :=
  done (opPointEnd n x ups s)

/-- EIS_SWEEP_END (R210). -/
def execEisSweepEnd (n : Chan) (s : State) : Host.Outcome State Fault Refusal := done (opSweepEnd n s)

/-- CAPTURE_END (R199, R200). -/
def execCaptureEnd (n : Chan) (s : State) : Host.Outcome State Fault Refusal := done (opCaptureEnd n s)

/-- RANGE_SWITCH_DONE (R73 to R76). -/
def execRangeSwitchDone (n : Chan) (x : Fresh) (s : State) : Host.Outcome State Fault Refusal := done (opSwitchDone n x s)

end Sys2Proof.Machine
end

