-- ==== Sys2Proof/Machine/ExecStart.lean ====
section
/-! DEFINITION. Reset, start-up and the boot window: POR to BOOTWAIT_TIMEOUT. -/

namespace Sys2Proof.Machine

/-- POR (R432, R478). `aonKept`: VDDIO or VBAK has kept AON supplied (R377). -/
def execPor (aonKept : Bool) (s : State) : Host.Outcome State Fault Refusal := done (opPor aonKept s)

/-- RESET_PIN (R432, R433, R487): RESET# rises after `lowNs` low. -/
def execResetPin (lowNs : Nat) (s : State) : Host.Outcome State Fault Refusal := done (opResetPin lowNs s)

/-- RSTCMD (R453). -/
def execRstcmd (m : Master) (v : Word) (s : State) : Host.Outcome State Fault Refusal :=
  done (regWrite m 0x00 0x17 v s)

/-- STARTUP (R434, R436). -/
def execStartup (x : StartIn) (s : State) : Host.Outcome State Fault Refusal := done (opStartup x s)

/-- STARTUP_READY (R434, R401). -/
def execStartupReady (s : State) : Host.Outcome State Fault Refusal := done (opReady s)

/-- IMGPORT_BLOCK (R273 to R275), which the host link writes. -/
def execImgportBlock (fifo : Bool) (words : List Word) (s : State) : Host.Outcome State Fault Refusal :=
  done (if s.acts .hostlink then touchReg 0x11 0x10 (imagePort fifo words s) else s)

/-- IMAGE_BLOCK_DONE (R274). -/
def execImageBlockDone (coll : BitVec 4) (s : State) : Host.Outcome State Fault Refusal := done (opBlockDone coll s)

/-- IMGCTRL_RESTART (R275). -/
def execImgctrlRestart (m : Master) (s : State) : Host.Outcome State Fault Refusal := done (regWrite m 0x11 0x12 2 s)

/-- IMGCTRL_END (R275, R440). -/
def execImgctrlEnd (m : Master) (domFail : Byte) (ups : List Upset) (s : State) : Host.Outcome State Fault Refusal :=
  done (finishWrite domFail ups (writeOne m 0x11 0x12 1 s))

/-- BOOTWAIT_TIMEOUT (R440). -/
def execBootwaitTimeout (domFail : Byte) (ups : List Upset) (s : State) : Host.Outcome State Fault Refusal :=
  done (opBootwait domFail ups s)

end Sys2Proof.Machine
end

