-- ==== Sys2Proof/Machine/ExecTrip.lean ====
section
/-! DEFINITION. Comparators, dead time, fold-back, burst and the conversion check: TRIP_VMAX to HIGH_MID_MISMATCH. -/

namespace Sys2Proof.Machine

/-- TRIP_VMAX (R93). -/
def execTripVmax (n : Chan) (also : List (Chan × Trip)) (s : State) : Host.Outcome State Fault Refusal :=
  doneRamps (trips ((n, .vmax) :: also) s)

/-- TRIP_VMIN (R93). -/
def execTripVmin (n : Chan) (also : List (Chan × Trip)) (s : State) : Host.Outcome State Fault Refusal :=
  doneRamps (trips ((n, .vmin) :: also) s)

/-- TRIP_ICHG (R93). -/
def execTripIchg (n : Chan) (also : List (Chan × Trip)) (s : State) : Host.Outcome State Fault Refusal :=
  doneRamps (trips ((n, .ichg) :: also) s)

/-- TRIP_IDIS (R93). -/
def execTripIdis (n : Chan) (also : List (Chan × Trip)) (s : State) : Host.Outcome State Fault Refusal :=
  doneRamps (trips ((n, .idis) :: also) s)

/-- TRIP_TMAX (R93). -/
def execTripTmax (n : Chan) (also : List (Chan × Trip)) (s : State) : Host.Outcome State Fault Refusal :=
  doneRamps (trips ((n, .tmax) :: also) s)

/-- TRIP_TMIN (R93). -/
def execTripTmin (n : Chan) (also : List (Chan × Trip)) (s : State) : Host.Outcome State Fault Refusal :=
  doneRamps (trips ((n, .tmin) :: also) s)

/-- TRIP_Q (R93). -/
def execTripQ (n : Chan) (also : List (Chan × Trip)) (s : State) : Host.Outcome State Fault Refusal :=
  doneRamps (trips ((n, .q) :: also) s)

/-- TRIP_SENSE (R93). -/
def execTripSense (n : Chan) (also : List (Chan × Trip)) (s : State) : Host.Outcome State Fault Refusal :=
  doneRamps (trips ((n, .sense) :: also) s)

/-- PEAK (R93). -/
def execPeak (n : Chan) (s : State) : Host.Outcome State Fault Refusal := done (opPeak n s)

/-- PEAK_FAULT (R93). -/
def execPeakFault (n : Chan) (also : List (Chan × Trip)) (s : State) : Host.Outcome State Fault Refusal :=
  doneRamps (trips ((n, .peakFault) :: also) s)

/-- SWNODE (R93). -/
def execSwnode (n : Chan) (also : List (Chan × Trip)) (s : State) : Host.Outcome State Fault Refusal :=
  doneRamps (trips ((n, .swnode) :: also) s)

/-- BOOT_UV (R82). -/
def execBootUv (n : Chan) (s : State) : Host.Outcome State Fault Refusal := done (opBootUv n s)

/-- BOOT_FAULT (R93). -/
def execBootFault (n : Chan) (also : List (Chan × Trip)) (s : State) : Host.Outcome State Fault Refusal :=
  doneRamps (trips ((n, .bootFault) :: also) s)

/-- RAMP_ABORT (R93, R99). -/
def execRampAbort (n : Chan) (also : List (Chan × Trip)) (s : State) : Host.Outcome State Fault Refusal :=
  doneRamps (trips ((n, .rampAbort) :: also) s)

/-- DTLIM (R84). -/
def execDtlim (n : Chan) (highSide : Bool) (s : State) : Host.Outcome State Fault Refusal :=
  done (opDtlim n highSide s)

/-- FOLD (R72). -/
def execFold (n : Chan) (on : Bool) (s : State) : Host.Outcome State Fault Refusal := done (opFold n on s)

/-- BURST_CHANGE (R85). -/
def execBurstChange (n : Chan) (iref : Int) (s : State) : Host.Outcome State Fault Refusal := done (opBurst n iref s)

/-- HIGH_MID_MISMATCH (R111). -/
def execHighMidMismatch (n : Chan) (s : State) : Host.Outcome State Fault Refusal := done (opMismatch n s)

end Sys2Proof.Machine
end

