-- ==== Sys2Proof/Machine/Dispatch.lean ====
section
/-! DEFINITION. The meaning of every command: one arm per constructor of `Instr`, in the order of spec/opcode_table.json. -/

namespace Sys2Proof.Machine

def exec (i : Instr) (s : State) : Host.Outcome State Fault Refusal :=
  match i with
  | .por aonKept => Sys2Proof.Machine.execPor aonKept s
  | .resetPin lowNs => Sys2Proof.Machine.execResetPin lowNs s
  | .rstcmd m v => Sys2Proof.Machine.execRstcmd m v s
  | .startup x => Sys2Proof.Machine.execStartup x s
  | .startupReady => Sys2Proof.Machine.execStartupReady s
  | .imgportBlock fifo words => Sys2Proof.Machine.execImgportBlock fifo words s
  | .imageBlockDone coll => Sys2Proof.Machine.execImageBlockDone coll s
  | .imgctrlRestart m => Sys2Proof.Machine.execImgctrlRestart m s
  | .imgctrlEnd m domFail ups => Sys2Proof.Machine.execImgctrlEnd m domFail ups s
  | .bootwaitTimeout domFail ups => Sys2Proof.Machine.execBootwaitTimeout domFail ups s
  | .hcsFall mode3 => Sys2Proof.Machine.execHcsFall mode3 s
  | .poll f => Sys2Proof.Machine.execPoll f s
  | .write f => Sys2Proof.Machine.execWrite f s
  | .readReq f => Sys2Proof.Machine.execReadReq f s
  | .readFetch f => Sys2Proof.Machine.execReadFetch f s
  | .writeFifo f => Sys2Proof.Machine.execWriteFifo f s
  | .readFifoReq f => Sys2Proof.Machine.execReadFifoReq f s
  | .sync f => Sys2Proof.Machine.execSync f s
  | .reservedOp f => Sys2Proof.Machine.execReservedOp f s
  | .responseReady => Sys2Proof.Machine.execResponseReady s
  | .syncEdge offsetNs trim => Sys2Proof.Machine.execSyncEdge offsetNs trim s
  | .syncAcquired offsetNs trim => Sys2Proof.Machine.execSyncAcquired offsetNs trim s
  | .syncLost => Sys2Proof.Machine.execSyncLost s
  | .estopAssert => Sys2Proof.Machine.execEstopAssert s
  | .estopDeassert => Sys2Proof.Machine.execEstopDeassert s
  | .hgpLevelChange one level => Sys2Proof.Machine.execHgpLevelChange one level s
  | .levelRefreshLoss ch => Sys2Proof.Machine.execLevelRefreshLoss ch s
  | .levelRefreshReturn ch level => Sys2Proof.Machine.execLevelRefreshReturn ch level s
  | .fieldSupplyLoss vdda => Sys2Proof.Machine.execFieldSupplyLoss vdda s
  | .hostSupplyLoss => Sys2Proof.Machine.execHostSupplyLoss s
  | .vddpUv => Sys2Proof.Machine.execVddpUv s
  | .vddpUvClear => Sys2Proof.Machine.execVddpUvClear s
  | .arm m n => Sys2Proof.Machine.execArm m n s
  | .start m n => Sys2Proof.Machine.execStart m n s
  | .stop m n => Sys2Proof.Machine.execStop m n s
  | .pause m n => Sys2Proof.Machine.execPause m n s
  | .resume m n => Sys2Proof.Machine.execResume m n s
  | .safe m n => Sys2Proof.Machine.execSafe m n s
  | .clear m n => Sys2Proof.Machine.execClear m n s
  | .safeRampEnd n => Sys2Proof.Machine.execSafeRampEnd n s
  | .cfgWrite m n v => Sys2Proof.Machine.execCfgWrite m n v s
  | .frameEnd x => Sys2Proof.Machine.execFrameEnd x s
  | .steptime n => Sys2Proof.Machine.execSteptime n s
  | .recordReadable => Sys2Proof.Machine.execRecordReadable s
  | .pulseLevelChange n x => Sys2Proof.Machine.execPulseLevelChange n x s
  | .cccvCvPhase n => Sys2Proof.Machine.execCccvCvPhase n s
  | .dcirPulseEdge n x => Sys2Proof.Machine.execDcirPulseEdge n x s
  | .dcirResult n second x => Sys2Proof.Machine.execDcirResult n second x s
  | .dcirComplete n x => Sys2Proof.Machine.execDcirComplete n x s
  | .eisPointEnd n x ups => Sys2Proof.Machine.execEisPointEnd n x ups s
  | .eisSweepEnd n => Sys2Proof.Machine.execEisSweepEnd n s
  | .captureEnd n => Sys2Proof.Machine.execCaptureEnd n s
  | .rangeSwitchDone n x => Sys2Proof.Machine.execRangeSwitchDone n x s
  | .tripVmax n also => Sys2Proof.Machine.execTripVmax n also s
  | .tripVmin n also => Sys2Proof.Machine.execTripVmin n also s
  | .tripIchg n also => Sys2Proof.Machine.execTripIchg n also s
  | .tripIdis n also => Sys2Proof.Machine.execTripIdis n also s
  | .tripTmax n also => Sys2Proof.Machine.execTripTmax n also s
  | .tripTmin n also => Sys2Proof.Machine.execTripTmin n also s
  | .tripQ n also => Sys2Proof.Machine.execTripQ n also s
  | .tripSense n also => Sys2Proof.Machine.execTripSense n also s
  | .peak n => Sys2Proof.Machine.execPeak n s
  | .peakFault n also => Sys2Proof.Machine.execPeakFault n also s
  | .swnode n also => Sys2Proof.Machine.execSwnode n also s
  | .bootUv n => Sys2Proof.Machine.execBootUv n s
  | .bootFault n also => Sys2Proof.Machine.execBootFault n also s
  | .rampAbort n also => Sys2Proof.Machine.execRampAbort n also s
  | .dtlim n highSide => Sys2Proof.Machine.execDtlim n highSide s
  | .fold n on => Sys2Proof.Machine.execFold n on s
  | .burstChange n iref => Sys2Proof.Machine.execBurstChange n iref s
  | .highMidMismatch n => Sys2Proof.Machine.execHighMidMismatch n s
  | .visitStart => Sys2Proof.Machine.execVisitStart s
  | .substitutionStart => Sys2Proof.Machine.execSubstitutionStart s
  | .referencePhase => Sys2Proof.Machine.execReferencePhase s
  | .overlapOut => Sys2Proof.Machine.execOverlapOut s
  | .standinEnd x => Sys2Proof.Machine.execStandinEnd x s
  | .visitEnd => Sys2Proof.Machine.execVisitEnd s
  | .blendDone n x => Sys2Proof.Machine.execBlendDone n x s
  | .selfSlotStart => Sys2Proof.Machine.execSelfSlotStart s
  | .selfSlotEnd vrefx => Sys2Proof.Machine.execSelfSlotEnd vrefx s
  | .leafError x => Sys2Proof.Machine.execLeafError x s
  | .leafAged n => Sys2Proof.Machine.execLeafAged n s
  | .leafEnClear m => Sys2Proof.Machine.execLeafEnClear m s
  | .benchSenseMismatch => Sys2Proof.Machine.execBenchSenseMismatch s
  | .benchOv vb => Sys2Proof.Machine.execBenchOv vb s
  | .benchOvPersist vb => Sys2Proof.Machine.execBenchOvPersist vb s
  | .benchUv vb => Sys2Proof.Machine.execBenchUv vb s
  | .benchUvw => Sys2Proof.Machine.execBenchUvw s
  | .voltageThrottle vb => Sys2Proof.Machine.execVoltageThrottle vb s
  | .qstall e => Sys2Proof.Machine.execQstall e s
  | .bdemUpdate => Sys2Proof.Machine.execBdemUpdate s
  | .hresReq m v => Sys2Proof.Machine.execHresReq m v s
  | .hresCancel m v => Sys2Proof.Machine.execHresCancel m v s
  | .claim events => Sys2Proof.Machine.execClaim events s
  | .eoi m v => Sys2Proof.Machine.execEoi m v s
  | .softset m v => Sys2Proof.Machine.execSoftset m v s
  | .pendClear m w v events => Sys2Proof.Machine.execPendClear m w v events s
  | .gieWrite m v => Sys2Proof.Machine.execGieWrite m v s
  | .prioWrite m w v => Sys2Proof.Machine.execPrioWrite m w v s
  | .maskWrite m w v => Sys2Proof.Machine.execMaskWrite m w v s
  | .errorReport rs => Sys2Proof.Machine.execErrorReport rs s
  | .reactionEnd nested timeout => Sys2Proof.Machine.execReactionEnd nested timeout s
  | .shadowEnd nested present => Sys2Proof.Machine.execShadowEnd nested present s
  | .errWindowExpire b => Sys2Proof.Machine.execErrWindowExpire b s
  | .fsnow m v => Sys2Proof.Machine.execFsnow m v s
  | .fsexit m v => Sys2Proof.Machine.execFsexit m v s
  | .inject m v => Sys2Proof.Machine.execInject m v s
  | .collectorSelfCheckFail code => Sys2Proof.Machine.execCollectorSelfCheckFail code s
  | .captureRearm m c rs => Sys2Proof.Machine.execCaptureRearm m c rs s
  | .errCapRearm m b detail => Sys2Proof.Machine.execErrCapRearm m b detail s
  | .aliveToggle => Sys2Proof.Machine.execAliveToggle s
  | .lockOpen m b v => Sys2Proof.Machine.execLockOpen m b v s
  | .lockClose m b v => Sys2Proof.Machine.execLockClose m b v s
  | .lockAutoClose b => Sys2Proof.Machine.execLockAutoClose b s
  | .logSlotRebuild slot ups => Sys2Proof.Machine.execLogSlotRebuild slot ups s
  | .hkGroupReload addr ups => Sys2Proof.Machine.execHkGroupReload addr ups s
  | .marchGo m => Sys2Proof.Machine.execMarchGo m s
  | .marchStop m => Sys2Proof.Machine.execMarchStop m s
  | .marchGroup x => Sys2Proof.Machine.execMarchGroup x s
  | .checkPassStart u => Sys2Proof.Machine.execCheckPassStart u s
  | .checkPassEnd u ups => Sys2Proof.Machine.execCheckPassEnd u ups s
  | .checkPort m u words coll => Sys2Proof.Machine.execCheckPort m u words coll s
  | .keyport m words => Sys2Proof.Machine.execKeyport m words s
  | .tamperPin lowNs => Sys2Proof.Machine.execTamperPin lowNs s
  | .voltageGlitch vdda permille ns => Sys2Proof.Machine.execVoltageGlitch vdda permille ns s
  | .tempTamper t => Sys2Proof.Machine.execTempTamper t s
  | .secureEraseDone ups => Sys2Proof.Machine.execSecureEraseDone ups s
  | .lccmd m v => Sys2Proof.Machine.execLccmd m v s
  | .pairOverride m v => Sys2Proof.Machine.execPairOverride m v s
  | .erase m => Sys2Proof.Machine.execErase m s
  | .prog m => Sys2Proof.Machine.execProg m s
  | .sealCmd m => Sys2Proof.Machine.execSeal m s
  | .cfgchk m => Sys2Proof.Machine.execCfgchk m s
  | .mailboxDone nvmOk ups => Sys2Proof.Machine.execMailboxDone nvmOk ups s
  | .hkRestartDone ups => Sys2Proof.Machine.execHkRestartDone ups s
  | .watchdogMiss => Sys2Proof.Machine.execWatchdogMiss s
  | .dietempSample t => Sys2Proof.Machine.execDietempSample t s
  | .domainFail d => Sys2Proof.Machine.execDomainFail d s
  | .powerStateEntered => Sys2Proof.Machine.execPowerStateEntered s
  | .entryAbort cause pin => Sys2Proof.Machine.execEntryAbort cause pin s
  | .eventTimerWake => Sys2Proof.Machine.execEventTimerWake s
  | .nextEventExpire => Sys2Proof.Machine.execNextEventExpire s
  | .io24Wake k => Sys2Proof.Machine.execIo24Wake k s
  | .wakeDone elapsedMs periods late => Sys2Proof.Machine.execWakeDone elapsedMs periods late s
  | .dwellEnd => Sys2Proof.Machine.execDwellEnd s
  | .pllunlock => Sys2Proof.Machine.execPllunlock s
  | .xtalfail => Sys2Proof.Machine.execXtalfail s
  | .vbaklow low => Sys2Proof.Machine.execVbaklow low s
  | .rtcstop => Sys2Proof.Machine.execRtcstop s
  | .timeLoad m lo hi => Sys2Proof.Machine.execTimeLoad m lo hi s
  | .syncenWrite m v => Sys2Proof.Machine.execSyncenWrite m v s
  | .calendarAlarm periods => Sys2Proof.Machine.execCalendarAlarm periods s
  | .calendarTick periods => Sys2Proof.Machine.execCalendarTick periods s
  | .io24Edge k raw => Sys2Proof.Machine.execIo24Edge k raw s
  | .pcfgWrite m k v => Sys2Proof.Machine.execPcfgWrite m k v s
  | .io24WireBreak k gone => Sys2Proof.Machine.execIo24WireBreak k gone s
  | .io24Overload k thermal => Sys2Proof.Machine.execIo24Overload k thermal s
  | .ovlrst m v hot => Sys2Proof.Machine.execOvlrst m v hot s
  | .saferel m v => Sys2Proof.Machine.execSaferel m v s
  | .lpMissing => Sys2Proof.Machine.execLpMissing s
  | .lpReturn => Sys2Proof.Machine.execLpReturn s
  | .lpLow => Sys2Proof.Machine.execLpLow s
  | .reread m v => Sys2Proof.Machine.execReread m v s
  | .clampClose => Sys2Proof.Machine.execClampClose s
  | .fixtureSequence x => Sys2Proof.Machine.execFixtureSequence x s
  | .fixtureSequenceEnd => Sys2Proof.Machine.execFixtureSequenceEnd s
  | .clampOpen => Sys2Proof.Machine.execClampOpen s
  | .override m v => Sys2Proof.Machine.execOverride m v s
  | .arbRetry => Sys2Proof.Machine.execArbRetry s
  | .fixtureBusStuck freed losses => Sys2Proof.Machine.execFixtureBusStuck freed losses s
  | .mgmtAddressMatch ara => Sys2Proof.Machine.execMgmtAddressMatch ara s
  | .mgmtTimeout code idx => Sys2Proof.Machine.execMgmtTimeout code idx s
  | .ident e => Sys2Proof.Machine.execIdent e s
  | .faultsum e => Sys2Proof.Machine.execFaultsum e s
  | .temps e => Sys2Proof.Machine.execTemps e s
  | .benchsum e => Sys2Proof.Machine.execBenchsum e s
  | .chstate e => Sys2Proof.Machine.execChstate e s
  | .alertRead e => Sys2Proof.Machine.execAlertRead e s
  | .alertWrite t => Sys2Proof.Machine.execAlertWrite t s
  | .alertResponse won proto => Sys2Proof.Machine.execAlertResponse won proto s
  | .hostidle => Sys2Proof.Machine.execHostidle s
  | .estopSet t => Sys2Proof.Machine.execEstopSet t s
  | .estopClear t => Sys2Proof.Machine.execEstopClear t s
  | .estopRead e => Sys2Proof.Machine.execEstopRead e s
  | .readReg t => Sys2Proof.Machine.execReadReg t s
  | .writeReg t => Sys2Proof.Machine.execWriteReg t s
  | .writePort t => Sys2Proof.Machine.execWritePort t s
  | .registerWrite w sets rs also coll => Sys2Proof.Machine.execRegisterWrite w sets rs also coll s
  | .currentRampToZeroEnd n => Sys2Proof.Machine.execCurrentRampToZeroEnd n s
  | .dcirPulseEnd n x => Sys2Proof.Machine.execDcirPulseEnd n x s
  | .fieldSupplyReturn => Sys2Proof.Machine.execFieldSupplyReturn s
  | .hostSupplyReturn => Sys2Proof.Machine.execHostSupplyReturn s
  | .pllRelock => Sys2Proof.Machine.execPllRelock s
  | .rtcCrystalReturn => Sys2Proof.Machine.execRtcCrystalReturn s
  | .benchUvwEnd => Sys2Proof.Machine.execBenchUvwEnd s
  | .sclRelease => Sys2Proof.Machine.execSclRelease s

end Sys2Proof.Machine
end

