-- ==== Sys2Proof/Machine/Pins.lean ====
section
/-! DEFINITION. What the output pins carry, computed from the state: the host-side level channels, the field-side control
pins, BDEM, the gate drivers and IO24 (01_architecture.md, R26, R31, R32; 07_bench_bus.md, R234, R235;
10_fault_collection.md, R302, R317, R318; 14_management_bus.md, R430; 16_pins_and_isolation.md, R464). A level is
`some`; `none` is high impedance, and for an open-drain pin released. -/

namespace Sys2Proof.Machine

/-- An open-drain pin: low while it is asserted. -/
def openDrain (asserted : Bool) : Option Bool := if asserted then some false else none

/-- The field die has VDDIO (R433). -/
def State.powered (s : State) : Bool := decide (s.pwr.state ≠ .off)

/-! ### Host side -/

/-- A host-side output: high impedance without VH (R32). -/
def State.hostPin (s : State) (level : Option Bool) : Option Bool := if s.link.hostUp then level else none

/-- INT#: released without refresh (R26, R31, R281). -/
def State.pinInt (s : State) : Option Bool := s.hostPin (openDrain (s.link.fieldRefresh && s.intN))

/-- FAULT#: low without refresh (R26, R31, R302). -/
def State.pinFault (s : State) : Option Bool := s.hostPin (openDrain (!s.link.fieldRefresh || s.faultPin))

/-- ALIVE: its last level without refresh (R26, R31, R317). -/
def State.pinAlive (s : State) : Option Bool :=
  s.hostPin (some (if s.link.fieldRefresh then s.fcol.alive else s.link.aliveHeld))

/-- HGPO: low without refresh (R26, R31). -/
def State.pinHgpo (s : State) : Option Bool := s.hostPin (some (s.link.fieldRefresh && bit (s.reg 0x05 0x01) 0))

/-- MISO: high impedance while HCS# is high and without VH; while HCS# is low, the bytes of R248 to R250 that the frame
in progress starts with (R16, R32). -/
def State.pinMiso (s : State) : Option (List Byte) := if s.link.hostUp && s.link.hcsLow then some s.link.head else none

/-! ### Field side -/

/-- A field-side output: not driven by a die without VDDIO. -/
def State.fieldPin (s : State) (level : Option Bool) : Option Bool := if s.powered then level else none

/-- ALERT# (R430). -/
def State.pinAlert (s : State) : Option Bool := s.fieldPin (openDrain s.alert)

/-- SAFE_OUT#: asserted from POR on, by a die without VDDIO too (R318, R433). -/
def State.pinSafeOut (s : State) : Option Bool := openDrain (s.safeOut || !s.powered)

/-- ALIVEF: the level of ALIVE, on the field side (R317). -/
def State.pinAliveF (s : State) : Option Bool := s.fieldPin (some s.fcol.alive)

/-- The high time of BDEM in each 10 µs period, in internal cycles: N, and 0 while the pin is held low (R234, R235). -/
def State.bdemHigh (s : State) : Nat :=
  if bit (s.reg 0x0B 0x01) 1 && s.ready && !s.asleep then s.bench.n else 0

/-- The gate drivers and the trickle stages may act (R94, R464). -/
def State.driversOn (s : State) : Bool := s.powered && !s.sup.vddpUv

/-- HGn and LGn switch; else both FETs are held off (R464). -/
def State.gatesSwitch (s : State) (n : Chan) : Bool := s.driversOn && (s.cell n).ps.switching

/-- FPn is driven; else it is high impedance (R75, R464). -/
def State.fpDriven (s : State) (n : Chan) : Bool := s.driversOn && (s.cell n).ps.trickleOn

/-- The switch of output pin k conducts to the level of R388; an input pin's switch is off (R384, R464). -/
def State.io24On (s : State) (k : Fin 8) : Bool := s.driversOn && s.isOut k && s.outLevel k

end Sys2Proof.Machine
end

