-- ==== Sys2Proof/Safety.lean ====
section
/-! DEFINITION. What counts as a safe run, and the words the statements about commands use: completion, the conditions
under which nothing but the command itself acts, and the invariants every step keeps. -/

namespace Sys2Proof

open Machine

/-- The step at s answers a next state that satisfies p. -/
def StepsTo (s : State) (p : State → Prop) : Prop := ∃ t, step s = .next t ∧ p t

/-- n steps from s all answer a next state. -/
def RunsSafely : Nat → State → Prop
  | 0, _ => True
  | n + 1, s => StepsTo s (RunsSafely n)

/-- The command c, run at s, answers a next state that satisfies p. -/
def Completes (c : Instr) (s : State) (p : State → Prop) : Prop := ∃ t, exec c s = .next t ∧ p t

/-- Nothing but the command acts: no BENCH undervoltage holds (R233), the lid trigger is disabled (R354), and no reaction of
the fault collector runs that could end (R313); a settle time may. -/
def Calm (s : State) : Prop :=
  s.bench.buv = false ∧ bit (s.reg 0x10 0x01) 1 = false ∧ ∀ nested x, s.rx nested = some x → x.settle = true

/-- A register write has no effect beyond its word: the boot window is shut (R440), no software reset waits (R453). -/
def Settled (s : State) : Prop := s.hk.imgOpen = false ∧ s.sys.rstReq = none

/-- Every byte of every bank reads as before. -/
def SameBytes (s t : State) : Prop := ∀ b a, t.byte b a = s.byte b a

/-- Every channel's STATE is as before. -/
def SameStates (s t : State) : Prop := ∀ n : Chan, (t.cell n).seq.state = (s.cell n).seq.state

/-- Memory banks and register store are in canonical form. -/
def Stored (s : State) : Prop := Memory.wf s.banks = true ∧ Regs.wf s.regs = true

/-- The in-service stack of R280: at most eight entries, no source twice. -/
def StackOk (s : State) : Prop := s.irq.stack.length ≤ 8 ∧ (s.irq.stack.map StackEntry.src).Nodup

/-- Every channel of a gang shows the STATE of its leader (R90). -/
def GangsShare (s : State) : Prop := ∀ n : Chan, (s.cell (s.leader n)).seq.state = (s.cell n).seq.state

/-- The frame command of an operation code (R247). -/
def frameCommand (op : Fin 8) (f : FrameIn) : Instr :=
  match op with
  | 0 => .poll f
  | 1 => .write f
  | 2 => .readReq f
  | 3 => .readFetch f
  | 4 => .writeFifo f
  | 5 => .readFifoReq f
  | 6 => .reservedOp f
  | 7 => .sync f

/-- The command of a comparator of R93 on channel n, with those that trip in the same modulator cycle. -/
def tripCommand (t : Trip) (n : Chan) (also : List (Chan × Trip)) : Instr :=
  match t with
  | .vmax => .tripVmax n also
  | .vmin => .tripVmin n also
  | .ichg => .tripIchg n also
  | .idis => .tripIdis n also
  | .tmax => .tripTmax n also
  | .tmin => .tripTmin n also
  | .q => .tripQ n also
  | .sense => .tripSense n also
  | .peakFault => .peakFault n also
  | .swnode => .swnode n also
  | .bootFault => .bootFault n also
  | .rampAbort => .rampAbort n also

/-- Registers keep their words, and every bank but the capture bank its bytes; BANK-S where the lid trigger, which wipes it, is
disabled (R354). -/
def KeepsStores (s t : State) : Prop :=
  t.regs = s.regs ∧ ∀ b a, b ≠ .c → (b = .s → bit (s.reg 0x10 0x01) 1 = false) → t.byte b a = s.byte b a

/-- Registers keep their words, and every bank but the capture bank and BANK-S its bytes. -/
def KeepsOpen (s t : State) : Prop := t.regs = s.regs ∧ ∀ b a, b ≠ .c → b ≠ .s → t.byte b a = s.byte b a

/-- A command of channel n refused with a code of R161: no STATE changes, CMDREJ, the reason kept and RCP.LASTREJ. -/
def Refuses (n : Chan) (cmd code : Nat) (s t : State) : Prop :=
  SameStates s t ∧ bit t.com[20 + n.val].status 4 = true ∧ (t.cell n).seq.rej = BitVec.ofNat 5 code
    ∧ (t.cell n).seq.rejCmd = BitVec.ofNat 3 cmd ∧ t.rcp.lastRej = put code 27 ||| put cmd 24 ||| put n.val 0

/-- The capture of a class (R303). -/
def capOf (s : State) (c : FClass) : Capture :=
  match c with
  | .corrected => s.fcol.cor
  | .contained => s.fcol.con
  | .fatal => s.fcol.fat

/-- Registers, memory, host link, log and every channel's STATE are as before. -/
def KeepsRest (s t : State) : Prop :=
  t.regs = s.regs ∧ SameBytes s t ∧ t.link = s.link ∧ t.log = s.log ∧ SameStates s t

/-- t differs from s only where a settling operation writes: pin levels and their STATUS bits, the domains and entry of
the power states, WAIT sources, ALERT latches, and the lid trigger. -/
structure Settles (s t : State) : Prop where
  pending : t.pending = s.pending
  regs : t.regs = s.regs
  banks : t.banks = s.banks
  sys : t.sys = s.sys
  clk : t.clk = s.clk
  irq : t.irq = s.irq
  fcol : t.fcol = s.fcol
  link : t.link = s.link
  fix : t.fix = s.fix
  memc : t.memc = s.memc
  units : t.units = s.units
  bench : t.bench = s.bench
  leaf : t.leaf = s.leaf
  rcp : t.rcp = s.rcp
  log : t.log = s.log
  cap : t.cap = s.cap
  hk : t.hk = s.hk
  nvm : t.nvm = s.nvm
  sup : t.sup = s.sup
  digest : t.digest = s.digest
  frame : t.frame = s.frame
  free : t.free = s.free
  /-- Only the lid trigger's condition. -/
  sec : { t.sec with trig := s.sec.trig } = s.sec
  /-- Only the domains, and an entry or a wake. -/
  pwr : { t.pwr with
          dom := s.pwr.dom, entering := s.pwr.entering, chosen := s.pwr.chosen, waking := s.pwr.waking
          wakeSrc := s.pwr.wakeSrc, deepAbort := s.pwr.deepAbort } = s.pwr
  /-- Only the ALERT latches. -/
  mgmt : { t.mgmt with cond := s.mgmt.cond, alertSrc := s.mgmt.alertSrc, araDone := s.mgmt.araDone } = s.mgmt
  /-- Only the pins, -/
  io : { t.io with pins := s.io.pins } = s.io
  /-- and of a pin the level last seen. -/
  pins : ∀ k : Fin 8, { t.io.pins[k.val] with drove := s.io.pins[k.val].drove } = s.io.pins[k.val]
  /-- Only what a WAIT step has seen. -/
  ch : ∀ n : Drawer, { t.ch[n.val] with seq :=
    { t.ch[n.val].seq with waitLast := s.ch[n.val].seq.waitLast, waitHit := s.ch[n.val].seq.waitHit } } = s.ch[n.val]
  /-- Only STATUS bits of IO24 and PWR, which can set. -/
  com : ∀ b : Fin 53, { t.com[b.val] with status := s.com[b.val].status } = s.com[b.val]
  status : ∀ b : Fin 53, b ≠ bIo24 → b ≠ bPwr → t.com[b.val].status = s.com[b.val].status

/-- Nothing but channel n's own recipe acts at the end of frame x, in RUN, with no gang and no software reset waiting, once its
values `u` are formed; n is in RUN and in no transition of another command. -/
def EngineServes (n : Chan) (x : MeasIn) (s u : State) : Prop :=
  s.ready = true ∧ s.sys.rstReq = none ∧ s.pwr.state = .run ∧ u.pwr.state = .run ∧ Calm u ∧ stopOf x.safes n = none
    ∧ (∀ k : Chan, u.formed k = false)
    ∧ (u.cell n).seq.state = .run ∧ ∀ k : Chan, k ≠ n → (u.cell k).seq.state ≠ .run ∧ (u.cell k).seq.state ≠ .hold

/-- The field die serves a frame that HCS_FALL has begun. -/
def Serves (s : State) : Prop :=
  s.link.hostUp = true ∧ s.link.hcsLow = true ∧ s.link.noAns = false ∧ s.works dBarf = true

/-- The field die serves the frame, and the checks of R272 up to the offset check pass. -/
def Accepts (op : Nat) (f : FrameIn) (s : State) : Prop := Serves s ∧ s.firstError op f = none

/-- Every byte of every bank but those of the link buffers of BANK-H reads as before. -/
def SameButLink (s t : State) : Prop := ∀ b a, (b ≠ .h ∨ a < 0x18000 ∨ 0x1C800 ≤ a) → t.byte b a = s.byte b a

end Sys2Proof
end

