-- ==== Sys2Proof/Certificates/Slice0/Obligations.lean ====
section
/-! DEFINITION. The statements about the model, for the provers: the queue and the invariants first, then family by
family what a command does and what it leaves alone. -/

open Sys2Proof Sys2Proof.Machine

/-! ### The queue and the whole machine -/

/-- A step takes the command at the front of the queue and runs it with the queue's rest; on an empty queue the block
idles (the model's choice, log entry 1). -/
def Obligations.StepRunsFront : Prop :=
  (∀ (s : State) (c : Instr) (rest : List Instr), s.pending = c :: rest → step s = exec c { s with pending := rest })
  ∧ ∀ s : State, s.pending = [] → step s = .next s

/-- Reset meets the invariants. -/
def Obligations.ResetMeetsInvariants : Prop := Stored State.reset ∧ StackOk State.reset

/-- Reset values the page tables state: CFG, ICHG_MAX, DT_CFG, ERR_CNT and DT_ACT of channel 5, BENCH.V_OV, the reactions of
MEAS_A and CLOCK, PWR.CTRL, IRQ.LEVEL with an empty stack, and FCOL.IRQ_EN. -/
def Obligations.ResetWords : Prop :=
  State.reset.readWord 0x25 0x08 = 0x0050C000#32 ∧ State.reset.readWord 0x25 0x22 = 0x000F4240#32 ∧
  State.reset.readWord 0x25 0x44 = 0x143C0502#32 ∧ State.reset.readWord 0x0B 0x25 = 0x00DD40A0#32 ∧
  State.reset.readWord 0x04 0x4C = 0x221#32 ∧ State.reset.readWord 0x04 0x58 = 0x541#32 ∧
  State.reset.readWord 0x02 0x01 = 6#32 ∧ State.reset.readWord 0x03 0x0A = 0xFF#32 ∧
  State.reset.readWord 0x04 0x04 = 0xFFFFFFFF#32 ∧ State.reset.readWord 0x25 0x06 = 0x000103E8#32 ∧
  State.reset.readWord 0x25 0x52 = 0x003C003C#32

/-- Every step keeps the memory banks and the register store in canonical form. -/
def Obligations.StepsKeepStores : Prop :=
  ∀ s t : State, Stored s → step s = .next t → Stored t

/-- Every step keeps the in-service stack within eight entries of different sources. -/
def Obligations.StepsKeepStack : Prop :=
  ∀ s t : State, StackOk s → step s = .next t → StackOk t

/-- No command touches the queue. -/
def Obligations.CommandsLeaveQueue : Prop :=
  ∀ (c : Instr) (s t : State), exec c s = .next t → t.pending = s.pending

/-! ### Reset and start-up -/

/-- What a reset leaves: BOOTSTAGE 0x00, channels IDLE with every path off, no interrupt in service, an empty response
buffer; NVM keeps its bytes, and a pending erase stays pending, also where VDDIO and VBAK were lost (NVPEND: the model's
reading of R355, log entry 58). -/
def Obligations.PinResets : Prop :=
  ∀ (s : State) (c : Instr),
    (∃ k, c = .por k) ∨ (∃ ns, c = .resetPin ns ∧ 1000 ≤ ns ∧ s.pwr.state ≠ .off) →
    Completes c s fun t =>
      t.sys.stage = 0 ∧ t.irq.stack = [] ∧ t.link.buf = [] ∧ t.link.held = none ∧ t.fcol.failStop = false
        ∧ (∀ n : Chan, (t.cell n).seq.state = .idle ∧ (t.cell n).ps.conducts = false)
        ∧ (∀ a, t.byte .nvm a = s.byte .nvm a) ∧ t.sec.nvpend = s.sec.nvpend
        ∧ (∀ p o, p ≠ 1 → o < 256 → t.reg p o = regDefault (regKey p o))

/-- A reset through RESET#, and a POR while VDDIO or VBAK keeps AON supplied, keep AON: the calendar, ALARM and TRIM; POR without
VDDIO and VBAK loses them; a pulse below 200 ns is ignored. -/
def Obligations.ResetKeepsAon : Prop :=
  ∀ (s : State) (ns : Nat),
    (s.pwr.state ≠ .off → ns < 200 → Calm s → Completes (.resetPin ns) s fun t => t.sys = s.sys ∧ KeepsRest s t)
    ∧ (∀ c, c = .resetPin ns ∧ 1000 ≤ ns ∧ s.pwr.state ≠ .off ∨ c = .por true → Completes c s fun t =>
      t.clk.sec = s.clk.sec ∧ t.clk.frac = s.clk.frac ∧ t.reg 1 0x0A = s.reg 1 0x0A ∧ t.reg 1 0x0B = s.reg 1 0x0B
        ∧ t.reg 1 0x0C = s.reg 1 0x0C)
    ∧ Completes (.por false) s fun t => t.clk.sec = 0 ∧ t.clk.frac = 0 ∧ t.clk.notLoaded = true ∧ t.reg 1 0x0C = 0

/-- RSTCMD with its key, from the master that holds the open lock of SYS: where no path conducts and no ramp runs the device
resets; where a path of a channel outside SAFE and FAULT conducts it starts the channel's SAFE ramp, and while a SAFE ramp runs
every channel is in SAFE or FAULT and the reset waits. In NAP, where a half whose last TRICKLE step has ended is off and its ramps
have ended (the model's reading, log entry 98), it resets or waits. Without the open lock it only sets LKDROP. -/
def Obligations.SoftwareResets : Prop :=
  ∀ (s : State) (m : Master) (v : Word), s.acts m = true → Settled s → Calm s →
    (fld v 16 16 = 0x5253 → s.openFor bSys m = true → s.anyRamp = false → (∀ n : Chan, (s.cell n).ps.conducts = false) →
      Completes (.rstcmd m v) s fun t =>
        t.sys.stage = 0 ∧ t.sys.swRst = true ∧ t.sys.winReq = bit v 0 ∧ ∀ n : Chan, (t.cell n).seq.state = .idle)
    ∧ (fld v 16 16 = 0x5253 → s.openFor bSys m = true → s.anyRamp = true → GangsShare s → s.pwr.state ≠ .nap →
      Completes (.rstcmd m v) s fun t =>
        t.sys.rstReq = some (bit v 0) ∧ t.sys.stage = s.sys.stage
          ∧ ∀ n : Chan, (t.cell n).seq.state = .safe ∨ (t.cell n).seq.state = .fault)
    ∧ (∀ n : Chan, fld v 16 16 = 0x5253 → s.openFor bSys m = true → GangsShare s → s.pwr.state ≠ .nap →
      (s.cell n).ps.conducts = true → (s.cell n).seq.state ≠ .safe → (s.cell n).seq.state ≠ .fault →
      Completes (.rstcmd m v) s fun t =>
        t.sys.rstReq = some (bit v 0) ∧ t.sys.stage = s.sys.stage ∧ (t.cell n).ps.ramp = true
          ∧ ∀ k : Chan, (t.cell k).seq.state = .safe ∨ (t.cell k).seq.state = .fault)
    ∧ (fld v 16 16 = 0x5253 → s.openFor bSys m = true → s.pwr.state = .nap → Completes (.rstcmd m v) s fun t =>
      t.sys.stage = 0 ∧ t.sys.swRst = true ∧ t.sys.winReq = bit v 0
        ∨ t.sys.stage = s.sys.stage ∧ t.sys.rstReq = some (bit v 0))
    ∧ (s.openFor bSys m = false →
      Completes (.rstcmd m v) s fun t => t.sys = s.sys ∧ t.com[0].lkDrop = true ∧ KeepsRest s t)

/-- Start-up without a pending erase, with BANK-H and every domain good, stops in the boot window where the patch partition is
blank, its image is not valid, BOOTHOLD of the configuration image is 1 or the start-up follows RSTCMD with WIN = 1, while NVM
reads without failure; else it takes the image from NVM and ends at DOMAINS. TESTF high leads to HALT, with the chip identifier
and the management address taken from the straps, an open strap read as 0. READY follows DOMAINS, and the fixture tag is
read. -/
def Obligations.StartupRuns : Prop :=
  ∀ (s : State) (x : StartIn),
    (s.sys.stage = 0 → s.pwr.state ≠ .off → x.testf = true → Completes (.startup x) s fun t =>
      t.sys.stage = 0xF0 ∧ t.sys.cid = x.cid &&& ~~~ x.cidOpen ∧ t.sys.madr = x.madr &&& ~~~ x.madrOpen)
    ∧ (s.sys.stage = 0 → s.pwr.state ≠ .off → x.testf = false → s.sec.nvpend = false → x.marchFail.getLsbD 3 = false →
      x.domFail = 0 → Completes (.startup x) s fun t => (t.sys.stage = 0x09 ∨ t.sys.stage = 0x06) ∧
        (x.ups = [] → (∀ w ∈ s.banks.bad, w.1 ≠ .nvm) →
          if (s.patchBlank || !s.patchValid || s.bootHold || s.sys.winReq) = true then
            t.sys.stage = 0x06 ∧ t.hk.imgOpen = true ∧ t.hk.nextBlk = 0
              ∧ (s.patchBlank = false → s.patchValid = false → bit t.sys.flags 1 = true)
          else t.sys.stage = 0x09 ∧ t.hk.imgOpen = s.hk.imgOpen ∧ t.hk.image = .nvm))
    ∧ (s.sys.stage = 0x09 → Calm s → Completes .startupReady s fun t =>
      t.sys.stage = 0x0A ∧ (s.fixEn = true → s.fix.running = none → t.fix.running = some .plain))

/-- Image blocks: HK.IMGPORT takes a block behind those that wait; check unit 1 appends a good one and counts a bad one;
RESTART clears the counts. Where in BANK-H the blocks stand, 1,020 bytes each from byte 0, is the model's reading (log
entry 27). -/
def Obligations.ImageBlocks : Prop :=
  ∀ s : State, s.hk.imgOpen = true → s.hk.imgEnded = false → s.sys.rstReq = none → Calm s →
    (∀ fifo ws, s.acts .hostlink = true → Completes (.imgportBlock fifo ws) s fun t =>
      t.hk.blocks = s.hk.blocks ++ [(fifo && decide (ws.length = 256), ws)] ∧ t.hk.nextBlk = s.hk.nextBlk)
    ∧ (∀ ok ws rest coll, s.hk.blocks = (ok, ws) :: rest → Memory.wf s.banks = true →
      Completes (.imageBlockDone coll) s fun t => t.hk.blocks = rest ∧
        if ok = true ∧ s.hk.nextBlk < 96 ∧ ws[255]? = some (crc32 (ws.take 255) (BitVec.ofNat 32 s.hk.nextBlk)) then
          t.hk.nextBlk = s.hk.nextBlk + 1 ∧ t.hk.badCnt = s.hk.badCnt
            ∧ ∀ i, i < 255 → some (t.mword .h (1020 * s.hk.nextBlk + 4 * i)) = ws[i]?
        else t.hk.nextBlk = s.hk.nextBlk ∧ t.hk.badCnt = (if s.hk.badCnt = 255 then 255 else s.hk.badCnt + 1))
    ∧ ∀ m, s.acts m = true → Completes (.imgctrlRestart m) s fun t => t.hk.nextBlk = 0 ∧ t.hk.badCnt = 0 ∧ t.hk.imgOpen = true

/-- The boot window closes, and start-up goes on to DOMAINS: at END the image in BANK-H is taken, with HKHOST, where it is valid
and fits the blocks accepted, else the core runs ROM alone, with IMGBAD and HKROM; after BOOTWAIT without a block it runs ROM
alone. Where the image stands in BANK-H is the model's reading (log entry 27), and that a block which waits is dropped its
choice (log entry 97). -/
def Obligations.BootWindowCloses : Prop :=
  ∀ s : State, s.hk.imgOpen = true → s.hk.imgEnded = false → s.sys.rstReq = none →
    (∀ m p, s.acts m = true → Completes (.imgctrlEnd m 0 p) s fun t => t.hk.imgOpen = false ∧ t.sys.stage = 0x09
      ∧ t.hk.blocks = [] ∧ (p = [] →
        if s.mword .h 0 = 0x48555749 ∧ 4 + (s.mword .h 4).toNat ≤ 255 * s.hk.nextBlk
            ∧ s.mword .h 12 = crc32 (s.mwords .h 16 (s.mword .h 4).toNat) (s.mword .h 4) then
          t.hk.image = .host ∧ bit t.sys.flags 3 = true
        else t.hk.image = .rom ∧ bit t.sys.flags 1 = true ∧ bit t.sys.flags 2 = true))
    ∧ (∀ p, s.hk.nextBlk = 0 → s.sys.bootWait ≠ 0 →
      Completes (.bootwaitTimeout 0 p) s fun t => t.hk.imgOpen = false ∧ t.hk.image = .rom ∧ t.sys.stage = 0x09)

/-! ### Jelefel frames -/

/-- A falling HCS# starts a frame: MISO bytes 0 to 3, or the no-answer pattern where the field die does not serve. -/
def Obligations.FrameBegins : Prop :=
  ∀ (s : State) (mode3 : Bool), s.link.hostUp = true → s.link.hcsLow = false →
    Completes (.hcsFall mode3) s fun t =>
      t.link.hcsLow = true ∧ t.link.mode3 = mode3 ∧ t.link.noAns = !s.serves
        ∧ t.link.head = (if s.serves then s.frameHead else noAnswer) ∧ t.regs = s.regs

/-- A rejected frame sets the STATUS bit of the first condition of R272 that holds, of 1 to 8 or, with the held response
released, of 9 to 11, and clears PREV_OK; a frame of the reserved operation 6 is always rejected. Beside its staging in BANK-H
it changes no byte of memory but the capture bank's. -/
def Obligations.FramesRejected : Prop :=
  ∀ (s : State) (f : FrameIn), Serves s → Stored s → bit (s.reg 0x10 0x01) 1 = false →
    (∀ (op : Fin 8) (i : Nat), s.firstError op.val f = some i ∨ s.firstError op.val f = none ∧
        (if s.redelivers op.val (s.answer f.tag) then s else releaseHeld s).lateError op.val f (s.answer f.tag) = some i →
      Completes (frameCommand op f) s fun t =>
      bit t.com[5].status i = true ∧ t.link.prevOk = false ∧ t.link.hcsLow = false ∧ t.com[5].capValid = true
        ∧ t.regs = s.regs ∧ ∀ b a, b ≠ .c → (b ≠ .h ∨ a < 0x18000 ∨ 0x1C800 ≤ a) → t.byte b a = s.byte b a)
    ∧ Completes (.reservedOp f) s fun t => t.link.prevOk = false ∧ ∃ i, s.firstError 6 f = some i ∧ bit t.com[5].status i = true

/-- A POLL counts, releases the held response and changes no register, no response and, beside its staging in BANK-H, no memory.
SYNC resets both counts, empties the response buffer, and is reported in STATUS. -/
def Obligations.PollAndSync : Prop :=
  ∀ (s : State) (f : FrameIn),
    (Accepts 0 f s → Calm s → Stored s → f.mends = [] → Completes (.poll f) s fun t =>
      t.link.frames = s.link.frames + 1 ∧ t.link.reqCnt = s.link.reqCnt + 1 ∧ t.link.prevOk = true
        ∧ t.link.held = none ∧ t.link.buf = s.link.buf ∧ t.regs = s.regs ∧ SameButLink s t ∧ SameStates s t)
    ∧ (Accepts 7 f s → Completes (.sync f) s fun t =>
      t.link.reqCnt = 0 ∧ t.link.rspCnt = 0 ∧ t.link.buf = [] ∧ t.link.held = none ∧ t.link.prevOk = true
        ∧ bit t.com[5].status 9 = true ∧ t.regs = s.regs)

/-- A WRITE to the recipe table commits its words, and a WRITE_FIFO to an address of it leaves the last word there: no register
and no other byte of memory changes but those of the link buffers, where the frame is staged. -/
def Obligations.WritesCommit : Prop :=
  ∀ (s : State) (f : FrameIn), Calm s → Settled s → Stored s → isRecipe f.page = true → f.mends = [] → f.also = [] →
    let a := (f.page.toNat - 0x80) * 1024 + 4 * f.off.toNat
    (Accepts 1 f s → Completes (.write f) s fun t =>
      (∀ i, i ≤ f.len.toNat → some (t.mword .r (a + 4 * i)) = (payloadWords 1 f)[i]?)
        ∧ (∀ b x, (b ≠ .r ∨ x < a ∨ a + 4 * (f.len.toNat + 1) ≤ x) → (b ≠ .h ∨ x < 0x18000 ∨ 0x1C800 ≤ x) →
          t.byte b x = s.byte b x)
        ∧ t.rcp.edition = s.rcp.edition + 1 ∧ t.regs = s.regs ∧ t.link.frames = s.link.frames + 1)
    ∧ (Accepts 4 f s → Completes (.writeFifo f) s fun t =>
      some (t.mword .r a) = (payloadWords 4 f).getLast?
        ∧ (∀ b x, (b ≠ .r ∨ x < a ∨ a + 4 ≤ x) → (b ≠ .h ∨ x < 0x18000 ∨ 0x1C800 ≤ x) → t.byte b x = s.byte b x)
        ∧ t.regs = s.regs)

/-- READ_REQ and READ_FIFO_REQ queue a response under their tag: LEN + 1 words, a READ_FIFO_REQ the first of them each time. The
words are those of the recipe table, of a register page as it stood before the frame's own cycle, and 0 of a page that does not
exist; LINK.COUNT and LINK.LASTFRM show the frame itself, and a word of IRQ.CLAIM alone is what a claim answers. The read meets
no parity error, and beside the link buffers of BANK-H no byte of memory changes. -/
def Obligations.ReadsQueue : Prop :=
  ∀ (s : State) (f : FrameIn), Calm s → Stored s → f.ups = [] → f.mends = [] → s.banks.bad = [] →
    (releaseHeld s).lateError 2 f .err = none →
    let p := f.page.toNat
    let reads (o op : Nat) (w : Word) : Prop :=
      (isRecipe f.page = true → o < 256 → w = s.mword .r ((p - 0x80) * 1024 + 4 * o))
      ∧ (isRecipe f.page = false → pageBlk p = none → w = 0)
      ∧ (isRecipe f.page = false → p ≠ 5 ∨ o ≠ 0x08 ∧ o ≠ 0x0F → w = s.readWord p o)
      ∧ (p = 5 → o = 0x08 → fld w 0 11 = (s.link.reqCnt + 1).toNat ∧ fld w 16 11 = s.link.rspCnt.toNat)
      ∧ (p = 5 → o = 0x0F → fld w 21 3 = op ∧ fld w 16 5 = f.tag.toNat ∧ fld w 8 8 = p ∧ fld w 0 8 = f.off.toNat
        ∧ bit w 24 = s.link.mode3)
    let queues (op : Nat) (single : Bool) (t : State) : Prop :=
      ∃ ws : List Word, t.link.buf = s.link.buf ++ [⟨f.tag, f.page, f.off, f.len, false, false, ws⟩]
        ∧ ws.length = f.len.toNat + 1 ∧ t.link.held = none ∧ t.regs = s.regs ∧ SameButLink s t
        ∧ if p = 3 ∧ f.off = 8 ∧ (single = true ∨ f.len = 0) then
            (∀ w ∈ ws, w = (claim s).1) ∧ t.irq.stack = (claim s).2.irq.stack
          else t.irq = s.irq ∧ ∀ i, (h : i < ws.length) → reads (f.off.toNat + if single then 0 else i) op ws[i]
    (Accepts 2 f s → Completes (.readReq f) s (queues 2 false))
    ∧ (Accepts 5 f s → Completes (.readFifoReq f) s (queues 5 true))

/-- READ_FETCH delivers a ready response: MISO carries it, the response count advances, and it is held; where a word of it has
failed in both copies it is released at once, and MEM.STATUS shows the parity error. No other word of BANK-H has wrong parity.
Responses become ready in the order of the requests. -/
def Obligations.FetchDelivers : Prop :=
  ∀ s : State,
    (∀ (f : FrameIn) (r : Response), Accepts 3 f s → s.answer f.tag = .response r → (∀ w ∈ s.banks.bad, w.1 ≠ .h) →
      Completes (.readFetch f) s fun t =>
        t.link.held = (if f.respFail then none else some r) ∧ t.link.rspCnt = s.link.rspCnt + 1
          ∧ t.link.buf = s.link.buf.filter (fun x => decide (x.tag ≠ r.tag)) ∧ t.link.miso = s.misoOf 3 f
          ∧ (f.respFail = true → bit t.com[9].status 3 = true) ∧ t.regs = s.regs)
    ∧ ∀ (pre post : List Response) (r : Response), s.works dBarf = true → s.link.buf = pre ++ r :: post →
      (∀ x ∈ pre, x.ready = true) → r.ready = false →
      Completes .responseReady s fun t => t.link.buf = pre ++ { r with ready := true } :: post

/-! ### Levels and supplies -/

/-- SYNC edges: the first acquires, one within 2 µs of an aligned boundary counts as good, one further off sets its
STATUS bit; acquisition aligns; the loss of SYNC runs free. -/
def Obligations.SyncTracks : Prop :=
  ∀ s : State, s.tracks = true →
    (∀ ns trim, Completes (.syncEdge ns trim) s fun t =>
      t.clk.offset = syncOffset ns ∧
        (s.clk.aligned = false → t.clk.acquiring = true ∧ t.clk.pllTrim = pllTrim trim) ∧
        (s.clk.aligned = true → ns.natAbs ≤ 2000 → t.clk.slips = 0 ∧ t.clk.aligned = true ∧ t.clk.pllTrim = pllTrim trim) ∧
        (s.clk.aligned = true → 2000 < ns.natAbs → bit t.com[1].status 3 = true ∧
          (t.clk.aligned = true ↔ s.clk.slips + 1 < 3) ∧ (t.clk.aligned = true → t.clk.pllTrim = s.clk.pllTrim)))
    ∧ (s.clk.acquiring = true → ∀ ns trim, Completes (.syncAcquired ns trim) s fun t =>
      t.clk.aligned = true ∧ t.clk.acquiring = false ∧ bit t.com[1].status 2 = true
        ∧ t.clk.pllTrim = pllTrim trim)
    ∧ (s.clk.freeRun = false → Completes .syncLost s fun t =>
      t.clk.freeRun = true ∧ t.clk.aligned = false ∧ bit t.com[1].status 1 = true ∧ t.clk.pllTrim = s.clk.pllTrim)

/-- ESTOP# asserted puts every channel into SAFE (one in FAULT stays) and every output to its safe value; deasserted it
changes no channel. -/
def Obligations.EstopSafes : Prop :=
  ∀ s : State,
    (s.estop = false → GangsShare s → Completes .estopAssert s fun t =>
      (∀ n : Chan, (t.cell n).seq.state = .safe ∨ (t.cell n).seq.state = .fault)
        ∧ (∀ k : Fin 8, s.isOut k = true → t.io.pins[k.val].safeLatch = true) ∧ KeepsStores s t)
    ∧ (Calm s → Completes .estopDeassert s fun t =>
      t.link.estop.sent = true ∧ SameStates s t ∧ t.regs = s.regs ∧ SameBytes s t)

/-- The level channels: a new HGP level; the loss of refresh, with its flag and its STATUS bit; and its return. -/
def Obligations.LevelChannels : Prop :=
  ∀ s : State,
    (∀ one level, Completes (.hgpLevelChange one level) s fun t =>
      (if one then t.link.hgp1.sent else t.link.hgp0.sent) = level)
    ∧ (∀ ch, (levelOf ch s).lost = false → Completes (.levelRefreshLoss ch) s fun t =>
      (levelOf ch t).lost = true ∧ bit t.com[5].status (lossBit ch) = true ∧ t.com[5].capValid = true)
    ∧ ∀ ch level, Completes (.levelRefreshReturn ch level) s fun t =>
      levelOf ch t = ⟨level, false⟩

/-- The supplies: VDDA and VDDIO lost and back, VH lost and back, with the levels the host-side pins show; VDDP
undervoltage, while no software reset waits and no gang is formed, stops every path at once, and a channel in ARMED, RUN or
HOLD whose SAFE ramp does not run is in SAFE afterwards. -/
def Obligations.SuppliesOfDies : Prop :=
  ∀ s : State,
    (s.sup.vddaLow = false → Completes (.fieldSupplyLoss true) s fun t =>
      t.sup.vddaLow = true ∧ t.link.fieldRefresh = false ∧ t.com[2].capValid = true
        ∧ (s.link.hostUp = true → t.pinInt = none ∧ t.pinFault = some false ∧ t.pinHgpo = some false
          ∧ (s.link.fieldRefresh = true → t.pinAlive = some s.fcol.alive)))
    ∧ (Calm s → Completes (.fieldSupplyLoss false) s fun t =>
      t.pwr.state = .off ∧ t.sys.stage = 0 ∧ ∀ n : Chan, (t.cell n).ps.conducts = false)
    ∧ (Completes .fieldSupplyReturn s fun t => t.sup.vddaLow = false)
    ∧ (Completes .hostSupplyLoss s fun t =>
      t.link.hostUp = false ∧ t.pinInt = none ∧ t.pinFault = none ∧ t.pinAlive = none ∧ t.pinHgpo = none
        ∧ ∀ ch, (levelOf ch t).lost = true)
    ∧ (Completes .hostSupplyReturn s fun t => t.link.hostUp = true)
    ∧ (s.sup.vddpUv = false → s.sys.rstReq = none → (∀ n : Chan, s.formed n = false) → Completes .vddpUv s fun t =>
      t.sup.vddpUv = true ∧ ∀ n : Chan, (t.cell n).ps.conducts = false
        ∧ ((s.cell n).seq.state.live = true → (s.cell n).ps.ramp = false → (t.cell n).seq.state = .safe))
    ∧ Completes .vddpUvClear s fun t => t.sup.vddpUv = false

/-! ### Channel commands -/

/-- ARM and START that pass the checks of R161; START loads the start entry and clears the loop counters. -/
def Obligations.ArmAndStart : Prop :=
  ∀ (s : State) (m : Master) (n : Chan), s.acts m = true → Settled s → Calm s → s.sup.vddpUv = false →
    ((s.cell n).seq.state = .idle ∨ (s.cell n).seq.state = .done ∨ (s.cell n).seq.state = .armed) →
    (s.startChecks n false = none → Completes (.arm m (dr n)) s fun t => (t.cell n).seq.state = .armed)
    ∧ (s.startChecks n true = none → Completes (.start m (dr n)) s fun t =>
      (t.cell n).seq.state = .run ∧ (t.cell n).seq.next = .load (s.startEntry n) ∧ (t.cell n).seq.pc = s.startEntry n
        ∧ (t.cell n).seq.loops = Vector.replicate 4 0 ∧ (t.cell n).ps.pkCnt = 0 ∧ (t.cell n).dcir.stat = 0)

/-- Refused commands: START and ARM by the first check of R161 that fails, STATE first; STOP, PAUSE and RESUME by STATE, then by
the gang; CLEAR, which checks STATE and the ramp, FAIL_STOP, the gang and the stops in that order; and SAFE in SAFE (the model's
reading of R160, log entry 25). No STATE changes, CMDREJ and RCP.LASTREJ are set, and the code and the command are kept for
STEP_REASON, which shows them at the next frame end (the model's reading of R57, log entry 53). ARM in ARMED and CLEAR in IDLE,
which R160 accepts and which do nothing, are refused here where a later check fails (the model's choice, log entry 95). -/
def Obligations.RefusedCommands : Prop :=
  ∀ (s : State) (m : Master) (n : Chan), s.acts m = true → Settled s → Calm s →
    let st := (s.cell n).seq.state
    (st = .idle ∨ st = .done ∨ st = .armed → ∀ code : Nat,
      (s.startChecks n true = some code → Completes (.start m (dr n)) s fun t => Refuses n 1 code s t)
      ∧ (s.startChecks n false = some code → Completes (.arm m (dr n)) s fun t => Refuses n 7 code s t))
    ∧ (st = .run ∨ st = .hold ∨ st = .safe ∨ st = .fault →
      (Completes (.start m (dr n)) s fun t => Refuses n 1 1 s t) ∧ Completes (.arm m (dr n)) s fun t => Refuses n 7 1 s t)
    ∧ (st ≠ .armed → st ≠ .run → st ≠ .hold → Completes (.stop m (dr n)) s fun t => Refuses n 2 1 s t)
    ∧ (st ≠ .run → Completes (.pause m (dr n)) s fun t => Refuses n 3 1 s t)
    ∧ (st ≠ .hold → Completes (.resume m (dr n)) s fun t => Refuses n 4 1 s t)
    ∧ (s.member n = true →
      (st = .armed ∨ st = .run ∨ st = .hold → Completes (.stop m (dr n)) s fun t => Refuses n 2 3 s t)
      ∧ (st = .run → Completes (.pause m (dr n)) s fun t => Refuses n 3 3 s t)
      ∧ (st = .hold → Completes (.resume m (dr n)) s fun t => Refuses n 4 3 s t))
    ∧ (st = .safe → Completes (.safe m (dr n)) s fun t => Refuses n 5 1 s t)
    ∧ ((s.cell n).seq.state.live = true ∨ s.ramping n = true → Completes (.clear m (dr n)) s fun t => Refuses n 6 1 s t)
    ∧ ((s.cell n).seq.state.live = false → s.ramping n = false →
      (s.fcol.failStop = true → Completes (.clear m (dr n)) s fun t => Refuses n 6 2 s t)
      ∧ (s.fcol.failStop = false → s.member n = true → Completes (.clear m (dr n)) s fun t => Refuses n 6 3 s t)
      ∧ (s.fcol.failStop = false → s.member n = false → s.estopBlocks = true →
        Completes (.clear m (dr n)) s fun t => Refuses n 6 5 s t))

/-- STOP, PAUSE and RESUME in the states R160 lists for them. -/
def Obligations.StopPauseResume : Prop :=
  ∀ (s : State) (m : Master) (n : Chan), s.acts m = true → Settled s → Calm s → s.member n = false → s.sup.vddpUv = false →
    ((s.cell n).seq.state = .armed → Completes (.stop m (dr n)) s fun t => (t.cell n).seq.state = .idle)
    ∧ ((s.cell n).seq.state = .run ∨ (s.cell n).seq.state = .hold → Completes (.stop m (dr n)) s fun t =>
      (t.cell n).seq.state = .done ∧ (t.cell n).seq.step = none ∧
        ((s.step n).isSome = true → (t.cell n).seq.reason = 3))
    ∧ ((s.cell n).seq.state = .run → Completes (.pause m (dr n)) s fun t =>
      (t.cell n).seq.state = .hold ∧ (t.cell n).seq.phase = .off ∧ (t.cell n).seq.step = (s.cell n).seq.step)
    ∧ ((s.cell n).seq.state = .hold → (∀ e, (s.cell n).seq.next ≠ .stale e) →
      Completes (.resume m (dr n)) s fun t => (t.cell n).seq.state = .run)

/-- SAFE puts a channel, and the gang it leads, into SAFE, with the SAFE ramp of what conducts; in NAP, where its half is then off,
its paths are off (the model's reading, log entry 98). CLEAR leads from SAFE, FAULT and DONE to IDLE. -/
def Obligations.SafeAndClear : Prop :=
  ∀ (s : State) (m : Master) (n : Chan), s.acts m = true → Settled s → Calm s → s.member n = false →
    ((s.cell n).seq.state ≠ .safe → (s.cell n).seq.state ≠ .fault → Completes (.safe m (dr n)) s fun t =>
      (∀ k, s.leader k = n → (t.cell k).seq.state = .safe) ∧ (t.cell n).seq.state = .safe ∧ (t.cell n).seq.reason = 4
        ∧ (t.cell n).seq.step = none
        ∧ ((s.cell n).ps.conducts = true → if s.pwr.state = .nap ∧ t.driveOn n = false then (t.cell n).ps.conducts = false
            else (t.cell n).ps.ramp = true ∧ (t.cell n).ps.i0 = (s.cell n).ps.iref))
    ∧ ((s.cell n).seq.state = .safe ∨ (s.cell n).seq.state = .fault ∨ (s.cell n).seq.state = .done
        ∨ (s.cell n).seq.state = .idle → s.ramping n = false → s.fcol.failStop = false → s.estopBlocks = false →
      Completes (.clear m (dr n)) s fun t => (t.cell n).seq.state = .idle)

/-- Channel commands leave every register word, the recipe table, the log and NVM alone, and the interrupt stack. -/
def Obligations.ChannelCommandFrame : Prop :=
  ∀ (s t : State) (m : Master) (n : Drawer) (c : Instr), Settled s → Calm s →
    c ∈ [Instr.arm m n, .start m n, .stop m n, .pause m n, .resume m n, .safe m n, .clear m n] → exec c s = .next t →
    t.regs = s.regs ∧ (∀ a, t.byte .r a = s.byte .r a) ∧ (∀ a, t.byte .l a = s.byte .l a)
      ∧ (∀ a, t.byte .h a = s.byte .h a) ∧ (∀ a, t.byte .nvm a = s.byte .nvm a) ∧ t.link = s.link
      ∧ t.irq.stack = s.irq.stack ∧ t.clk = s.clk ∧ t.leaf = s.leaf

/-- CFG is written in IDLE, SAFE, FAULT and DONE; in ARMED, RUN and HOLD the write is discarded and CFGREJ set. The LEAF drawer
has no sequencer: a channel command or a CFG write to it changes no channel and no register. -/
def Obligations.CfgAndLeafDrawer : Prop :=
  ∀ (s : State) (m : Master) (v : Word), Settled s → Calm s →
    (∀ n : Chan, s.acts m = true → Stored s →
      ((s.cell n).seq.state.live = false → Completes (.cfgWrite m (dr n) v) s fun t =>
        t.cfg n.val = cfgFix (s.cfg n.val) (mix (s.cfg n.val) v 0x03F3F333))
      ∧ ((s.cell n).seq.state.live = true → Completes (.cfgWrite m (dr n) v) s fun t =>
        t.regs = s.regs ∧ bit (t.cell n).ps.evt 15 = true ∧ bit t.com[20 + n.val].status 7 = true))
    ∧ ∀ c ∈ [Instr.arm m 32, .start m 32, .stop m 32, .pause m 32, .resume m 32, .safe m 32, .clear m 32, .cfgWrite m 32 v],
      Completes c s fun t => SameStates s t ∧ t.regs = s.regs ∧ SameBytes s t

/-! ### Frames, steps and records -/

/-- While no software reset waits, a frame end in RUN or NAP, from READY on, counts FRAME on by one, leaves no written LOG.TAIL
waiting, and leaves V and I of each drawer as its DIGEST entry shows them; before READY and in DOZE and SLEEP it changes neither
FRAME, nor a register, memory, the host link, the log or a channel's STATE (the model's choice, log entry 16). Of the formed
records the oldest becomes readable: it waits no longer, those behind it keep their order, and with LOG.CTRL.EN = 1 its eight
words stand in the slot of HEAD and WRCNT counts, unless the log is full or the channel at its quota: then the record is dropped
and counted. -/
def Obligations.FrameEndAdvances : Prop :=
  ∀ (s : State) (x : MeasIn),
    (s.sys.rstReq = none → s.ready = true → s.asleep = false →
      Completes (.frameEnd x) s fun t => t.frame = s.frame + 1 ∧ t.log.tailReq = none
      ∧ ∀ n : Fin 33, t.digest[3 * n.val] = t.ch[n.val].pub.v ∧ t.digest[3 * n.val + 1] = t.ch[n.val].pub.i)
    ∧ (s.sys.rstReq = none → s.ready = false ∨ s.asleep = true → Calm s → Completes (.frameEnd x) s fun t =>
      t.frame = s.frame ∧ KeepsRest s t)
    ∧ ∀ r rest, s.log.pending = r :: rest → Completes .recordReadable s fun t => t.log.pending = rest ∧
      (bit (s.reg 0x0E 0x01) 0 = true → Stored s → s.fill < 8192 → s.unreadOf r.ch < s.logQuota →
        t.mwords .l (32 * s.logHead) 8 = recordWords r.w s.log.wrcnt ∧ t.log.wrcnt = s.log.wrcnt + 1
          ∧ t.log.unread = s.log.unread ++ [r.ch])
      ∧ (bit (s.reg 0x0E 0x01) 0 = true → s.fill = 8192 ∨ s.logQuota ≤ s.unreadOf r.ch →
        t.log.wrcnt = s.log.wrcnt ∧ t.log.dropcnt = satW s.log.dropcnt ∧ bit t.com[14].status 1 = true
          ∧ t.log.drops[r.ch.val] = (if s.log.drops[r.ch.val] = 0xFFFF then 0xFFFF else s.log.drops[r.ch.val] + 1)
          ∧ ∀ a, t.byte .l a = s.byte .l a)

/-- What the recipe engine does at a frame end that is evaluated: the first word of a running step that fires, with ACTION END,
ends the recipe with REASON 1 and its number; a transition runs LOOP, which sets its counter, on to END; and with no wait
before it, the highest-ranked entry that fits is admitted and leaves the queue. -/
def Obligations.EngineActs : Prop :=
  ∀ (s : State) (x : MeasIn) (n : Chan),
    (EngineServes n x s (frameValues x s) → (s.cell n).seq.phase = .active →
      let u := frameValues x s
      let q := (u.cell n).seq
      ∀ st j, q.next = .none → q.step = some st → u.overTime n = false → u.evaluates = true →
        (evalWords st q.cvph (u.gangG n) q.lastQ q.terms).2 = some j → tAct st.w[4 + j.val] = 2 →
        Completes (.frameEnd x) s fun t =>
          (t.cell n).seq.state = .done ∧ (t.cell n).seq.reason = 1 ∧ (t.cell n).seq.tw = BitVec.ofNat 2 j.val
            ∧ (t.cell n).seq.endEntry = st.entry ∧ (t.cell n).seq.step = none)
    ∧ (EngineServes n x s (frameValues x s) →
      let u := frameValues x s
      ∀ e, (u.cell n).seq.next = .load e → u.inWindow n e.val = true → u.inWindow n (e + 1).val = true →
        (∀ w ∈ u.banks.bad, w.1 ≠ .r) →
        u.needsStale n (u.fetchStep e) = false → u.needsStale n (u.fetchStep (e + 1)) = false →
        (u.fetchStep e).bad = false → (u.fetchStep (e + 1)).bad = false →
        (u.fetchStep e).typ = 10 → fld (u.fetchStep e).w[1] 4 2 = 0 → (u.fetchStep (e + 1)).typ = 14 →
        Completes (.frameEnd x) s fun t =>
          (t.cell n).seq.state = .done
            ∧ (t.cell n).seq.loops[(Fin.ofNat 4 (fld (u.fetchStep e).w[1] 0 2)).val] = (u.fetchStep e).w[2])
    ∧ (EngineServes n x s (frameValues x s) → (s.cell n).seq.phase ≠ .active →
      let v := frameSums x s
      ∀ e, v.pick true (rankOrder v.bench.queue) = some e → e.idx = dr n → (frameValues x s).overTime n = false →
        ((frameValues x s).cell n).seq.next = .none →
        Completes (.frameEnd x) s fun t =>
          (t.cell n).seq.phase = .admitted ∧ ∀ y ∈ t.bench.queue, y.idx ≠ dr n)

/-- The totals of a channel of no gang whose chains work, at a frame end in RUN, while no software reset
waits: each sample of the frame's streams adds its charge
and its energy, i × Δt and v × i × Δt at the PLL trim in force, to the total of its sign. -/
def Obligations.TotalsAdd : Prop :=
  ∀ (s : State) (x : MeasIn) (n : Chan), s.ready = true → s.sys.rstReq = none → s.pwr.state = .run → s.measOn n = true →
    n.val < x.chans.length → (∀ k : Chan, s.formed k = false) →
    let b := bring ⟨(allChans.zip x.chans).map fun c => (c.1, c.2.samples), x.leaf⟩ s
    Completes (.frameEnd x) s fun t =>
      let add (a : Totals) (y : (Int × Int) × Nat) : Totals :=
        a.add (chargeOf (s.trimAt x.cuts y.2) 1 y.1.2) (energyOf (s.trimAt x.cuts y.2) 1 y.1.1 y.1.2) false
      let tot := ((b.taken n).out.zipIdx).foldl add (s.cell n).tot
      (t.cell n).tot.qIn = tot.qIn ∧ (t.cell n).tot.qOut = tot.qOut ∧ (t.cell n).tot.eIn = tot.eIn
        ∧ (t.cell n).tot.eOut = tot.eOut

/-- The end of a SAFE ramp, with every path of the channel off, after which a software reset that waits for the last ramp
follows, and the events of a running step: STEPTIME ends it with REASON 6, PULSE changes level after the time programmed for it,
CCCV reaches its CV phase, a current ramp to 0 ends, a range switch completes. -/
def Obligations.StepEvents : Prop :=
  ∀ (s : State) (n : Chan), Calm s →
    ((s.cell n).seq.state = .run → s.member n = false → s.overTime n = true → (s.step n).isSome = true →
      Completes (.steptime n) s fun t => (t.cell n).seq.reason = 6 ∧ (t.cell n).seq.step = none ∧
        ((t.cell n).seq.state = .safe ∨ (t.cell n).seq.state = .fault))
    ∧ (∀ x st, s.activeStep n = some st → st.typ = 6 → (s.cell n).ps.rsw = false →
      (st.levelTime (s.cell n).seq.levelB : Int) ≤ (s.cell n).seq.levelT + ((bring x s).gotN n : Int) →
      Completes (.pulseLevelChange n x) s fun t =>
      (t.cell n).seq.levelB = !(s.cell n).seq.levelB ∧ KeepsRest s t)
    ∧ (∀ st, s.activeStep n = some st → st.typ = 3 → Completes (.cccvCvPhase n) s fun t =>
      (t.cell n).seq.cvph = true ∧ KeepsRest s t)
    ∧ (s.sys.rstReq = none → s.formed n = false → (s.cell n).ps.ramp = true → Completes (.safeRampEnd n) s fun t =>
      (t.cell n).ps.conducts = false ∧ (t.cell n).ps.ramp = false ∧
        (t.cell n).seq.state = (if (s.cell n).ps.toFault then .fault else (s.cell n).seq.state))
    ∧ (∀ win, s.sys.rstReq = some win → (endRamp n s).anyRamp = false → Completes (.safeRampEnd n) s fun t =>
      t.sys.stage = 0 ∧ t.sys.swRst = true ∧ t.sys.winReq = win)
    ∧ (s.formed n = false → (s.cell n).ps.toZero = true → Completes (.currentRampToZeroEnd n) s fun t =>
      (t.cell n).ps.conducts = false ∧ (t.cell n).ps.toZero = false ∧ KeepsRest s t)
    ∧ (∀ x, s.formed n = false → (s.cell n).ps.rsw = true → (s.cell n).ps.toZero = false →
      Completes (.rangeSwitchDone n x) s fun t =>
      (t.cell n).ps.rsw = false ∧ (if s.range n = 2 then (t.cell n).ps.switching = false else (t.cell n).ps.trickleOn = false)
        ∧ KeepsRest s t)

/-- DCIR, EIS and capture events: the phases of a DCIR step, the words a result forms, a point appended to the sweep by the
sums of its half-windows, the completion of step and sweep, which end with the frame, and a capture with 508 pairs, with its
CDONE bit. -/
def Obligations.DcirEisCapture : Prop :=
  ∀ (s : State) (n : Chan), Calm s →
    (∀ x st, s.dcirStep n [1] = some st → (s.cell n).ps.rsw = false →
      ((50 * fld st.w[3] 0 16 : Nat) : Int) ≤ (s.cell n).seq.levelT + ((bring x s).gotN n : Int) →
      Completes (.dcirPulseEdge n x) s fun t =>
      (t.cell n).dcir.phase = 2 ∧ t.regs = s.regs)
    ∧ (∀ x st, s.dcirStep n [2] = some st → ((50 * fld st.w[3] 16 16 : Nat) : Int) ≤ (bring x s).sinceEdge n →
      Completes (.dcirPulseEnd n x) s fun t => (t.cell n).dcir.phase = 3 ∧ KeepsRest s t)
    ∧ (∀ second x st m, s.dcirStep n [2, 3] = some st → (bring x s).dcirMeans n second = some m →
      (s.cell n).dcir.formed second = false → s.works dCapt = true → Completes (.dcirResult n second x) s fun t =>
        (t.cell n).dcir = dcirForm second (s.dcirValid n st second (m.2 - (s.cell n).dcir.base.2)) m (s.cell n).dcir
          ∧ KeepsStores s t)
    ∧ (∀ x st, s.dcirStep n [3] = some st →
      ((50 * (fld st.w[3] 16 16 + fld st.w[3] 0 16) : Nat) : Int) ≤ (bring x s).sinceEdge n →
      Completes (.dcirComplete n x) s fun t => (t.cell n).seq.done = true ∧ KeepsRest s t)
    ∧ (∀ st, s.eisStep n = some st → (s.cell n).eis.rerun = none → (s.cell n).eis.k < st.eisN → s.works dCapt = true →
      st.eisSettle (s.cell n).eis.k + 2 * st.eisTint (s.cell n).eis.k ≤ (s.cell n).eis.ms → (∀ w ∈ s.banks.bad, w.1 ≠ .c) →
      Completes (.eisPointEnd n ⟨[], []⟩ []) s fun t =>
        let e := (s.cell n).eis
        (t.cell n).eis.points = e.points ++ [⟨st.eisF n e.k, (eisZ e).1, (eisZ e).2, eisCoh e⟩] ∧ KeepsStores s t)
    ∧ (∀ st, s.eisStep n = some st → (s.cell n).eis.rerun = none → (s.cell n).eis.again = [] → st.eisN ≤ (s.cell n).eis.k →
      Completes (.eisSweepEnd n) s fun t => (t.cell n).seq.done = true ∧ KeepsRest s t)
    ∧ (∀ u, s.works dCapt = true → bit s.cap.armed n.val = true → s.cap.uses[n.val] = some u → u.kind = 1 →
        508 ≤ (s.cell n).pair.written →
      Completes (.captureEnd n) s fun t =>
        bit t.cap.armed n.val = false ∧ t.cap.uses[n.val] = none ∧ bit t.cap.cdmap n.val = true
          ∧ bit t.com[15].status 0 = true ∧ KeepsRest s t)

/-! ### Comparators and power stage -/

/-- A comparator of R93 that is armed and trips while no software reset waits: its PS_EVT bit, STATUS.PSEVT
and ERR_CAP; SAFE for the reactions SAFE, FAULT with every path off for PEAK_FAULT, SWNODE and BOOT_FAULT, and no path for a
ramp deviation. -/
def Obligations.TripsStop : Prop :=
  ∀ (s : State) (n : Chan) (t : Trip), s.tripArmed n t = true → s.sys.rstReq = none →
    (∀ also, Completes (tripCommand t n also) s fun u =>
      bit (u.cell n).ps.evt (tripEvt t) = true ∧ bit u.com[20 + n.val].status 7 = true
        ∧ u.com[20 + n.val].capValid = true ∧ KeepsStores s u)
    ∧ (tripFaults t = false → t ≠ .rampAbort → s.member n = false →
      Completes (tripCommand t n []) s fun u => (u.cell n).seq.state = .safe)
    ∧ (tripFaults t = true → s.member n = false → Completes (tripCommand t n []) s fun u =>
      (u.cell n).ps.conducts = false ∧
        ((s.cell n).seq.state.live = true ∨ (s.cell n).seq.state = .safe → (u.cell n).seq.state = .fault))
    ∧ (t = .rampAbort → s.formed n = false → Completes (tripCommand t n []) s fun u =>
      (u.cell n).ps.conducts = false ∧ (u.cell n).ps.ramp = false)

/-- Events of the power stage: PEAK counts in PK_CNT and sets its PS_EVT bit, BOOT_UV sets its bit, DTLIM leaves DTMAX as the
dead time of one turn-on and sets its bit, FOLD follows the trickle stage and sets its bit as it begins; BURST_CHANGE in
FRUGAL turns burst operation on below BIN, off above BOUT and off in every other profile; ten frames in a row in which HIGH
and MID differ report contained, and the count begins again (the model's choice, log entry 87). -/
def Obligations.PowerStageEvents : Prop :=
  ∀ (s : State) (n : Chan), Calm s →
    (s.drives n = true →
      (Completes (.peak n) s fun t =>
        (t.cell n).ps.pkCnt = satW (s.cell n).ps.pkCnt ∧ bit (t.cell n).ps.evt 8 = true ∧ KeepsRest s t)
      ∧ (Completes (.bootUv n) s fun t => bit (t.cell n).ps.evt 11 = true ∧ KeepsRest s t)
      ∧ (∀ high, bit (s.chReg n.val 0x40) 1 = false → Completes (.dtlim n high) s fun t =>
        (t.cell n).ps.dtAct = setFld (s.cell n).ps.dtAct (if high then 16 else 0) 6 (clampN 5 60 (fld (s.chReg n.val 0x44) 16 6))
          ∧ bit (t.cell n).ps.evt 14 = true ∧ KeepsRest s t)
      ∧ ∀ i, Completes (.burstChange n i) s fun t => KeepsRest s t
          ∧ (s.burstOk n = true → (s.clampHard n i).natAbs < 1000 * fld (s.chReg n.val 0x46) 0 16 →
            (t.cell n).ps.burst = true)
          ∧ (s.burstOk n = true → fld (s.chReg n.val 0x46) 0 16 < fld (s.chReg n.val 0x46) 16 16 →
            1000 * fld (s.chReg n.val 0x46) 16 16 < (s.clampHard n i).natAbs → (t.cell n).ps.burst = false)
          ∧ (s.burstOk n = false → (t.cell n).ps.burst = false))
    ∧ ((s.cell n).ps.trickleOn = true → s.driveOn n = true → s.coreOn = true → ∀ on, Completes (.fold n on) s fun t =>
      (t.cell n).ps.fold = on ∧ (on = true → bit (t.cell n).ps.evt 17 = true) ∧ KeepsRest s t)
    ∧ (s.measOn n = true → 10 ≤ (s.cell n).meas.differ → Completes (.highMidMismatch n) s fun t =>
        (bit t.fcol.con.info 31 = true ∨ bit t.fcol.fat.info 31 = true) ∧ KeepsStores s t
          ∧ t.com[20 + n.val].capValid = true ∧ (t.cell n).meas.differ = 0)

/-! ### LEAF -/

/-- A LEAF visit from its start, at a deferred channel that is no longer blocked or at the next of the rotation that is enabled and
not blocked, to the end of its stand-in, each phase after its time. -/
def Obligations.LeafVisit : Prop :=
  ∀ s : State,
    (∀ n : Chan, s.leafRuns = true → s.leaf.selfFail = false → s.leafDeferred = none → s.leaf.nextN ≤ n.val →
      bit (s.reg 0x0C 0x09) n.val = true → s.leafBlocked n = false →
      (∀ k : Chan, s.leaf.nextN ≤ k.val → k.val < n.val → bit (s.reg 0x0C 0x09) k.val = false) →
      Completes .visitStart s fun t =>
        t.leaf.phase = .overlapIn ∧ t.leaf.ch.toNat = n.val ∧ t.leaf.nextN = n.val + 1 ∧ t.leaf.time = 0 ∧ KeepsStores s t)
    ∧ (∀ n, s.leafRuns = true → s.leaf.selfFail = false → s.leafDeferred = some n → Completes .visitStart s fun t =>
      t.leaf.phase = .overlapIn ∧ t.leaf.ch.toNat = n.val ∧ t.leaf.time = 0 ∧ KeepsStores s t)
    ∧ (s.leaf.phase = .overlapIn → s.leaf.leaving = none → s.phaseMs 24 ≤ s.leaf.inPhase → Calm s →
        Completes .substitutionStart s fun t =>
      t.leaf.phase = .zero ∧ t.leaf.standin = true ∧ KeepsRest s t)
    ∧ (s.leaf.phase = .zero → s.leaf.leaving = none → s.phaseMs 16 ≤ s.leaf.inPhase → Calm s → Completes .referencePhase s fun t =>
      t.leaf.phase = .reference ∧ KeepsRest s t)
    ∧ (s.leaf.phase = .reference → s.leaf.leaving = none → s.phaseMs 16 ≤ s.leaf.inPhase → Completes .overlapOut s fun t =>
      let x := s.newTrims
      let ok := trimFits x.1 && trimFits x.2.1 && trimFits x.2.2
      t.leaf.phase = .overlapOut ∧ t.leaf.failed = !ok
        ∧ t.leaf.fresh = (if ok then some ⟨trimOf x.1, trimOf x.2.1, trimOf x.2.2⟩ else none) ∧ KeepsStores s t)
    ∧ (∀ x, s.leaf.phase = .overlapOut → s.leaf.standin = true → s.leaf.cut = false → 2 ≤ s.leaf.inPhase → Calm s →
      Completes (.standinEnd x) s fun t =>
      t.leaf.standin = false ∧ t.leaf.phase = .overlapOut ∧ KeepsRest s t)

/-- A visit confirmed or not, the end of a blend, the self slot, after the last channel of the rotation too, a LEAF error, which
stops a channel in ARMED, RUN or HOLD hard and puts it into SAFE while its conversions are replaced, an aged channel, and EN
cleared. -/
def Obligations.LeafEnds : Prop :=
  ∀ s : State, Calm s →
    (∀ n, s.visited = some n → s.leaf.phase = .overlapOut → s.leaf.leaving = none → s.leaf.standin = false →
      s.leaf.failed = false → s.phaseMs 8 ≤ s.leaf.inPhase →
      Completes .visitEnd s fun t =>
        t.leaf.phase ≠ .overlapOut ∧
          (if s.leaf.sums.1.within s.confirm.1 && s.leaf.sums.2.1.within s.confirm.2.1
              && s.leaf.sums.2.2.within s.confirm.2.2 then
            t.leaf.ages[n.val] = 0 ∧ t.leaf.fails[n.val] = 0 ∧ t.leaf.blend[n.val] = s.leaf.fresh
              ∧ bit t.leaf.vfail n.val = false
          else bit t.leaf.vfail n.val = true ∧ bit t.com[12].status 2 = true))
    ∧ (∀ n x f, s.leaf.blend[n.val] = some x → Completes (.blendDone n f) s fun t =>
      t.leaf.trims[n.val] = s.leaf.trims[n.val].reached x ((bring f s).alphaNow n) ∧ KeepsRest s t
        ∧ (s.leaf.alpha[n.val] = (1, 1, 1) → t.leaf.trims[n.val] = x ∧ t.leaf.blend[n.val] = none))
    ∧ (s.leafRuns = true → s.leaf.selfFail = true ∨ s.leaf.nextN = 32 ∧ s.leafDeferred = none →
      Completes .selfSlotStart s fun t =>
      t.leaf.phase = .selfSlot ∧ t.leaf.ch = 32 ∧ KeepsRest s t)
    ∧ (∀ vrefx, s.leaf.phase = .selfSlot → s.phaseMs 0 ≤ s.leaf.inPhase → Completes (.selfSlotEnd vrefx) s fun t =>
      t.leaf.rotcnt = s.leaf.rotcnt + 1 ∧ t.leaf.nextN = 0 ∧ t.leaf.phase ≠ .selfSlot ∧ bit t.com[12].status 0 = true)
    ∧ (∀ x n, s.visited = some n → s.leaf.phase = .zero ∨ s.leaf.phase = .reference → s.leaf.gapFill = false →
      s.sys.rstReq = none → Completes (.leafError x) s fun t =>
      t.leaf.cut = true ∧ t.leaf.fresh = none ∧ bit t.com[12].status 4 = true ∧ t.com[12].capValid = true ∧ KeepsStores s t
        ∧ ((s.cell n).seq.state.live = true → s.formed n = false →
          (t.cell n).ps.conducts = false ∧ (t.cell n).seq.state = .safe))
    ∧ (∀ n, s.pwr.state = .run → bit (s.reg 0x0C 0x09) n.val = true → bit s.leaf.aged n.val = false →
      1000 * max 100 (s.regF 0x0C 0x0A 0 16) < s.leaf.ages[n.val] → Completes (.leafAged n) s fun t =>
        bit t.leaf.aged n.val = true ∧ bit t.com[12].status 1 = true ∧ KeepsRest s t)
    ∧ (∀ m, s.acts m = true → Settled s → Stored s → Completes (.leafEnClear m) s fun t =>
      bit (t.reg 0x0C 0x01) 0 = false
        ∧ (s.visiting = true → t.leaf.leaving = some (decide (s.leaf.leaving = some true))))

/-! ### BENCH and broker -/

/-- BENCH conditions while the BENCH chains convert: the substitute for a VB that has been off for ten frames, overvoltage and
its persistence, undervoltage, the warning and its end, and the voltage throttle. Overvoltage and undervoltage stand unless the
report's own reaction restarts the BENCH sense, which then uses the substitute for 1 ms (R305). The SAFE of R232 and R233 is
stated of the channels that take part in BENCH, which one in the TRICKLE range does not (the model's reading, log entry 50). -/
def Obligations.BenchConditions : Prop :=
  ∀ (s : State) (vb : Int), s.works dMeasB = true →
    (10 ≤ s.bench.senseFar → s.bench.subst = false → Completes .benchSenseMismatch s fun t =>
      t.bench.subst = true ∧ t.bench.vbUse = some s.bench.vbLocal ∧ bit t.com[11].status 9 = true ∧ KeepsStores s t)
    ∧ (s.benchI 0x25 < vb → s.bench.bov = false → Completes (.benchOv vb) s fun t =>
      (t.bench.bov = true ∨ t.bench.forced = 2) ∧ bit t.com[11].status 4 = true ∧ KeepsStores s t)
    ∧ (s.benchI 0x25 < vb → s.bench.bov = true → (∀ n : Chan, s.formed n = false) → Completes (.benchOvPersist vb) s fun t =>
      ∀ n : Chan, (s.cell n).ps.iref < 0 → s.onBench n = true → (t.cell n).seq.state = .safe ∨ (t.cell n).seq.state = .fault)
    ∧ (vb < s.benchI 0x27 → s.bench.buv = false → (∀ n : Chan, s.formed n = false) → Completes (.benchUv vb) s fun t =>
      (t.bench.buv = true ∨ t.bench.forced = 2) ∧ bit t.com[11].status 5 = true ∧
        ∀ n : Chan, 0 < (s.cell n).ps.iref → s.onBench n = true → (t.cell n).seq.state = .safe ∨ (t.cell n).seq.state = .fault)
    ∧ (s.uvwLow = true → s.bench.buvw = false → Calm s → Completes .benchUvw s fun t =>
      t.bench.buvw = true ∧ bit t.com[11].status 6 = true ∧ KeepsRest s t)
    ∧ (s.uvwLow = false → Calm s → Completes .benchUvwEnd s fun t => t.bench.buvw = false ∧ KeepsRest s t)
    ∧ (Calm s → Completes (.voltageThrottle vb) s fun t =>
      t.bench.vbf = some vb ∧ t.bench.kv = s.kvOf vb ∧ KeepsRest s t)

/-- The broker: QSTALL of an entry that has waited too long, P_DEM and N of BDEM, of the V_B last published (the model's choice,
log entry 95), 0 before the first, and the host reservation asked for and cancelled; a write of REQ and CANCEL at once cancels
(the model's choice, log entry 32). -/
def Obligations.BrokerCommands : Prop :=
  ∀ s : State, Calm s →
    (∀ e x, x ∈ s.bench.queue → x.idx = e → s.stalls x = true → x.stalled = false → s.coreOn = true →
      Completes (.qstall e) s fun t =>
      bit t.com[11].status 2 = true ∧ KeepsRest s t)
    ∧ (s.coreOn = true → Completes .bdemUpdate s fun t =>
      let pfs : Int := max 1 (s.regF 0x0B 0x2A 16 16)
      let kv : Int := s.regF 0x0B 0x2A 0 16
      t.bench.pdem = clampI (-pfs) pfs (roundFree (1000 * s.bench.net + kv * (s.benchI 0x22 - s.bench.vbUse.getD 0)) 1000000)
        ∧ (t.bench.n : Int) = 1000 + roundFree (800 * t.bench.pdem) pfs ∧ 200 ≤ t.bench.n ∧ t.bench.n ≤ 1800 ∧ KeepsRest s t)
    ∧ (∀ m v, s.acts m = true → Settled s → bit v 8 = true → bit v 9 = false → Completes (.hresReq m v) s fun t =>
      t.resQueued = true ∨ t.bench.granted = true)
    ∧ ∀ m v, s.acts m = true → Settled s → bit v 9 = true → Completes (.hresCancel m v) s fun t =>
      t.resQueued = false ∧ t.bench.granted = false

/-! ### Interrupts -/

/-- A claim in the order of R283: GIE = 0, eight entries, no eligible source at or above the level, else the eligible source
of the highest priority and the lowest ID, which is pushed, with a pulse source's latch cleared. -/
def Obligations.ClaimServes : Prop :=
  ∀ (s : State) (events : List (Fin 128)), s.works dBarf = true → Calm s →
    (s.gie = false → Completes (.claim events) s fun t =>
      t.irq.claimWord.toNat % 256 = 0xFF ∧ t.irq.stack = s.irq.stack ∧ bit t.com[3].status 0 = true ∧ KeepsRest s t)
    ∧ (s.gie = true → s.irq.stack.length = 8 → Completes (.claim events) s fun t =>
      t.irq.claimWord.toNat % 256 = 0xFE ∧ t.irq.stack = s.irq.stack ∧ bit t.com[3].status 1 = true ∧ KeepsRest s t)
    ∧ (s.gie = true → s.irq.stack.length ≠ 8 → (∀ j : Fin 128, s.eligible j = true → s.prio j.val < s.level) →
      Completes (.claim events) s fun t =>
        t.irq.claimWord.toNat % 256 = 0xFF ∧ t.irq.stack = s.irq.stack ∧ bit t.com[3].status 0 = true ∧ KeepsRest s t)
    ∧ ∀ i : Fin 128, s.gie = true → s.irq.stack.length < 8 → s.eligible i = true → s.level ≤ s.prio i.val →
      (∀ j : Fin 128, s.eligible j = true → s.prio j.val < s.prio i.val ∨ (s.prio j.val = s.prio i.val ∧ i ≤ j)) →
      Completes (.claim events) s fun t =>
        t.irq.claimWord.toNat % 256 = i.val ∧ t.irq.stack = s.irq.stack ++ [⟨i, BitVec.ofNat 3 (s.prio i.val)⟩]
          ∧ t.active i = true ∧ t.level = s.prio i.val
          ∧ (pulseSource i = true → i ∉ events → t.irq.latch.getLsbD i.val = false) ∧ KeepsRest s t

/-- EOI of the host link removes the source's entry, out of order with STATUS bit 3, and an ID not in service sets bit 2;
of any other master it does nothing to the stack. -/
def Obligations.EoiReleases : Prop :=
  ∀ (s : State) (v : Word), s.acts .hostlink = true → Settled s → Calm s →
    (∀ k, s.stackPos (fld v 0 8) = some k → Completes (.eoi .hostlink v) s fun t =>
      t.irq.stack = s.irq.stack.eraseIdx k ∧ (k + 1 ≠ s.irq.stack.length → bit t.com[3].status 3 = true) ∧ KeepsRest s t
        ∧ (StackOk s → ∀ i : Fin 128, i.val = fld v 0 8 → t.active i = false)
        ∧ t.level = (((s.irq.stack.eraseIdx k).getLast?).map (·.prio.toNat)).getD 0)
    ∧ (s.stackPos (fld v 0 8) = none → Completes (.eoi .hostlink v) s fun t =>
      t.irq = s.irq ∧ bit t.com[3].status 2 = true ∧ KeepsRest s t)
    ∧ ∀ m, m ≠ .hostlink → Completes (.eoi m v) s fun t => t.irq = s.irq ∧ KeepsRest s t

/-- The registers of the interrupt controller: SOFTSET, PENDw, CTRL.GIE, PRIOw and MASKw. -/
def Obligations.IrqRegisters : Prop :=
  ∀ (s : State) (m : Master) (v : Word), s.acts m = true → Settled s → Calm s → Stored s →
    (Completes (.softset m v) s fun t =>
      (∀ k : Fin 32, bit v k.val = true → s.prio (96 + k.val) ≠ 0 → t.irq.latch.getLsbD (96 + k.val) = true)
        ∧ (∀ i, i < 96 → t.irq.latch.getLsbD i = s.irq.latch.getLsbD i) ∧ t.irq.stack = s.irq.stack ∧ KeepsRest s t)
    ∧ (∀ w events, Completes (.pendClear m w v events) s fun t =>
      (∀ b : Fin 32, ∀ i : Fin 128, i.val = 32 * w.val + b.val → pulseSource i = true → s.prio i.val ≠ 0 →
        t.irq.latch.getLsbD i.val = (bit events b.val || (s.irq.latch.getLsbD i.val && !bit v b.val)))
        ∧ t.irq.stack = s.irq.stack ∧ KeepsRest s t)
    ∧ (Completes (.gieWrite m v) s fun t => t.gie = bit v 0 ∧ t.irq = s.irq ∧ SameStates s t ∧ SameBytes s t)
    ∧ (∀ w, Completes (.prioWrite m w v) s fun t =>
      t.reg 3 (0x20 + w.val) = mix (s.reg 3 (0x20 + w.val)) v 0x77777777
        ∧ (∀ i : Fin 128, pulseSource i = true → t.prio i.val = 0 → t.irq.latch.getLsbD i.val = false)
        ∧ t.irq.stack = s.irq.stack ∧ SameStates s t ∧ SameBytes s t)
    ∧ ∀ w, Completes (.maskWrite m w v) s fun t =>
      t.reg 3 (0x10 + w.val) = v ∧ t.irq = s.irq ∧ SameStates s t ∧ SameBytes s t

/-! ### Fault collection and locks -/

/-- One report that no shadow takes and no counter escalates: its class word and STATUS bit latch where its reaction is
not NONE, its counter counts, and the capture of its class holds an error. The end of a reaction whose parts have ended starts its
settle time, that of a shadow frees its slot, and a report leaves its counting window; all while the collector is not put to
sleep with the device. -/
def Obligations.ReportsLatch : Prop :=
  ∀ s : State, s.asleep = false →
    (∀ r, Calm s → s.shadowOf r = none → s.com[(reportCounter r).val].count + 1 ≤ s.com[(reportCounter r).val].thresh.toNat →
      s.com[(reportCounter r).val].lastLines = 0 → s.com[(reportCounter r).val].lastChan = false →
      Completes (.errorReport [r]) s fun t =>
        t.com[(reportCounter r).val].count = s.com[(reportCounter r).val].count + 1
          ∧ (s.reaction r r.cls ≠ 0 → bit t.com[4].status r.line.val = true ∧
            bit (match r.cls with
              | .corrected => t.fcol.clsCor
              | .contained => t.fcol.clsCon
              | .fatal => t.fcol.clsFat) r.line.val = true)
          ∧ bit (match r.cls with
              | .corrected => t.fcol.cor.info
              | .contained => t.fcol.con.info
              | .fatal => t.fcol.fat.info) 31 = true ∧ KeepsStores s t)
    ∧ (∀ nested timeout x, s.sys.rstReq = none → s.rx nested = some x → x.settle = false →
      x.parts.all (RxPart.ended s timeout) = true → Completes (.reactionEnd nested timeout) s fun t => t.rx nested = some { x with settle := true } ∧ KeepsStores s t)
    ∧ (∀ x, Calm s → s.fcol.rxA = some x → x.settle = true → x.shadowed = [] → Completes (.shadowEnd false []) s fun t =>
      t.fcol.rxA = s.fcol.rxB ∧ t.fcol.rxB = none ∧ KeepsRest s t)
    ∧ ∀ b, Calm s → Completes (.errWindowExpire b) s fun t =>
      (s.com[b.val].count ≤ 1 → t.com[b.val].count = 0 ∧ t.com[b.val].lastLines = 0 ∧ t.com[b.val].lastChan = false)
        ∧ (1 < s.com[b.val].count → t.com[b.val].count = s.com[b.val].count - 1) ∧ KeepsRest s t

/-- FAIL_STOP by FSNOW and by a self-check of the collector, whose cause stands also where FAIL_STOP holds with another (the
model's reading of R324, log entry 70), its exit by FSEXIT, an injected report, taken by the capture of its class or of the one
it is escalated to, and ALIVE. -/
def Obligations.FailStopAndInject : Prop :=
  ∀ (s : State) (m : Master) (v : Word), Calm s →
    (s.acts m = true → Settled s → s.openFor bFcol m = true → bit v 0 = true → s.fcol.failStop = false → GangsShare s →
      Completes (.fsnow m v) s fun t =>
        t.fcol.failStop = true ∧ t.fcol.fsCause = 3
          ∧ (∀ n : Chan, (t.cell n).seq.state = .safe ∨ (t.cell n).seq.state = .fault)
          ∧ (∀ b : Fin 53, t.com[b.val].lockOpen = false) ∧ KeepsStores s t)
    ∧ (s.acts m = true → Settled s → s.openFor bFcol m = true → bit v 0 = false → bit v 1 = true → s.fcol.fsCause ≠ 2 →
      s.fcol.clsFat = 0 → s.noneLasting = true → Completes (.fsexit m v) s fun t =>
        t.fcol.failStop = false ∧ KeepsRest s t)
    ∧ (s.acts m = true → Settled s → s.openFor bFcol m = true → s.sec.life = .factory → bit v 31 = true → fld v 29 2 ≠ 3 →
      s.asleep = false → Completes (.inject m v) s fun t =>
        ∃ c : FClass, (classCode c = fld v 29 2 ∨ classCode c = fld v 29 2 + 1) ∧ bit (capOf t c).info 31 = true ∧
          (if bit (capOf s c).info 31 = true then bit (capOf t c).info 30 = true
           else fld (capOf t c).info 23 5 = fld v 24 5 ∧ bit (capOf t c).info 29 = true))
    ∧ (∀ code, s.coreOn = true → Completes (.collectorSelfCheckFail code) s fun t =>
      t.fcol.failStop = true ∧ t.fcol.fsCause = 2 ∧ t.com[4].capValid = true ∧ KeepsStores s t)
    ∧ (s.ready = true → s.fcol.failStop = false → Completes .aliveToggle s fun t =>
      t.fcol.alive = !s.fcol.alive ∧ KeepsRest s t)

/-- Captures and ERR_CAP re-armed, and the LOCK word: opened by a master that can hold it, closed by its owner or by
itself, a wrong key counted. -/
def Obligations.RearmsAndLocks : Prop :=
  ∀ (s : State) (m : Master) (b : Fin 53) (v : Word), s.acts m = true → Settled s → Calm s →
    (Completes (.captureRearm m .contained []) s fun t =>
      bit t.fcol.con.info 31 = false ∧ t.fcol.fat = s.fcol.fat ∧ t.fcol.cor = s.fcol.cor ∧ KeepsRest s t)
    ∧ (Completes (.errCapRearm m b none) s fun t =>
      t.com[b.val].capValid = false ∧ t.com[b.val].lostClr = 0 ∧ KeepsRest s t)
    ∧ (∀ d, Completes (.errCapRearm m b (some d)) s fun t =>
      t.com[b.val].capValid = true ∧ t.com[b.val].detail = d ∧ KeepsRest s t)
    ∧ (fld v 16 16 = 0x4F50 → fld v 8 8 = blkPage b → s.com[b.val].lockOpen = false → masterOwner m ≠ 0 →
      Completes (.lockOpen m b v) s fun t => t.openFor b m = true ∧ t.com[b.val].badKey = 0 ∧ KeepsRest s t)
    ∧ (fld v 16 16 = 0x434C → fld v 8 8 = blkPage b → s.openFor b m = true →
      Completes (.lockClose m b v) s fun t => t.com[b.val].lockOpen = false ∧ t.com[b.val].owner = 0 ∧ KeepsRest s t)
    ∧ (fld v 16 16 ≠ 0 → fld v 16 16 ≠ 0x4F50 → fld v 16 16 ≠ 0x434C → s.com[b.val].badKey ≠ 15 →
      Completes (.lockOpen m b v) s fun t =>
        t.com[b.val].badKey = s.com[b.val].badKey + 1 ∧ t.com[b.val].lockOpen = s.com[b.val].lockOpen)
    ∧ Completes (.lockAutoClose b) s fun t => t.com[b.val].lockOpen = false ∧ KeepsRest s t

/-! ### Memories and checks -/

/-- Recoveries end, and the march engine starts, stops and passes a good group without a byte changed. -/
def Obligations.RecoveryAndMarch : Prop :=
  ∀ s : State,
    (∀ slot p r, s.coreOn = true → (∀ u ∈ p, u.bank = .l) → s.recovery .l (32 * slot.val) 32 = some r →
      Completes (.logSlotRebuild slot p) s fun t =>
      t.recovery .l (32 * slot.val) 32 = none ∧ t.regs = s.regs ∧ (∀ a, t.byte .r a = s.byte .r a)
        ∧ (Stored s → s.unreadIn slot.val = none → t.mwords .l (32 * slot.val) 8 = List.replicate 8 0))
    ∧ (∀ addr p r, s.works dHk = true → (∀ u ∈ p, u.bank ≠ .r) → s.recovery .h addr 256 = some r →
      Completes (.hkGroupReload addr p) s fun t =>
      t.recovery .h addr 256 = none ∧ t.regs = s.regs ∧ ∀ a, t.byte .r a = s.byte .r a)
    ∧ (∀ m g, s.acts m = true → Settled s → Calm s → s.memc.running = false → s.marchFrom 0 = some g →
        Completes (.marchGo m) s fun t =>
      t.memc.running = true ∧ (t.memc.bank, t.memc.group) = g ∧ t.memc.mfail = 0 ∧ KeepsRest s t)
    ∧ (∀ m, s.acts m = true → Settled s → Calm s → s.memc.running = true → Completes (.marchStop m) s fun t =>
      t.memc.stop = true ∧ KeepsRest s t)
    ∧ (∀ x, s.memc.running = true → s.coreOn = true → x.hkIrq = false → x.ups = [] → x.accessed = false →
      s.badIn (marchBank s.memc.bank.toNat) (marchAddr s.memc.bank.toNat s.memc.group.toNat)
        (marchAddr s.memc.bank.toNat s.memc.group.toNat + 256) = [] → Calm s →
      (x.fail = none → Completes (.marchGroup x) s fun t =>
        KeepsRest s t ∧ t.memc.mfail = s.memc.mfail
          ∧ (s.memc.stop = true → t.memc.running = false)
          ∧ ∀ g, s.memc.stop = false → s.memc.again = [] → s.memc.seqNext = some g →
            (t.memc.bank, t.memc.group) = g ∧ t.memc.running = true)
      ∧ (x.fail.isSome = true → x.damaged = [] → s.memc.stop = true → Completes (.marchGroup x) s fun t =>
        bit t.memc.mfail 31 = true ∧ bit t.com[9].status 1 = true ∧ t.memc.running = false))

/-- Check units: a scrub pass starts, its end compares the CRC of the region, and PORT takes a word of a block. -/
def Obligations.CheckUnits : Prop :=
  ∀ (s : State) (u : Bool), Calm s → s.coreOn = true →
    (s.unitMode (unitNo u) = 1 → s.units[(unitNo u).val].busy = false → Completes (.checkPassStart u) s fun t =>
      t.units[(unitNo u).val].busy = true ∧ t.units[(unitNo u).val].dirty = false ∧ KeepsRest s t)
    ∧ (∀ ws, s.unitMode (unitNo u) = 1 → s.units[(unitNo u).val].busy = true → s.units[(unitNo u).val].dirty = false →
      s.unitWords (unitNo u).val = some ws → s.banks.bad = [] → Completes (.checkPassEnd u []) s fun t =>
        t.units[(unitNo u).val].result = s.unitSum (unitNo u) ws
          ∧ bit t.com[10].status (8 * (unitNo u).val + 1) = true
          ∧ (bit (s.chkReg (unitNo u).val 0) 25 = false → s.unitSum (unitNo u) ws ≠ s.units[(unitNo u).val].expect →
            bit t.com[10].status (8 * (unitNo u).val) = true ∧ t.com[10].capValid = true)
          ∧ KeepsStores s t)
    ∧ ∀ m v coll, s.acts m = true → Settled s → s.unitMode (unitNo u) = 2 → s.unitRoom (unitNo u) = true →
      s.units[(unitNo u).val].block.length + 2 < fld (s.chkReg (unitNo u).val 6) 2 18 →
      Completes (.checkPort m u [v] coll) s fun t =>
        t.units[(unitNo u).val].block = s.units[(unitNo u).val].block ++ [v]
          ∧ t.units[(unitNo u).val].dest = s.units[(unitNo u).val].dest + 1 ∧ t.regs = s.regs

/-! ### Secure store, life cycle, core -/

/-- A trigger of R354, in every state but OFF and HALT, wipes BANK-S and leaves the erase pending; no register and no byte of
another bank but the capture bank changes. -/
def Obligations.TriggersWipe : Prop :=
  ∀ s : State, s.sec.nvpend = false → s.sys.stage ≠ 0xF0 → s.pwr.state ≠ .off →
    (∀ ns, 1000 ≤ ns → s.sec.trig.getLsbD 0 = false → Completes (.tamperPin ns) s fun t =>
      t.sec.nvpend = true ∧ (∀ a, t.byte .s a = 0) ∧ bit t.com[16].status 0 = true ∧ KeepsOpen s t)
    ∧ (∀ vdda p ns, bit (s.reg 0x10 0x01) 2 = true → 200 < p.natAbs → 20 ≤ ns → ns ≤ 10000 → s.sec.trig.getLsbD 2 = false →
      Completes (.voltageGlitch vdda p ns) s fun t =>
        t.sec.nvpend = true ∧ (∀ a, t.byte .s a = 0) ∧ bit t.com[16].status 2 = true ∧ KeepsOpen s t)
    ∧ ∀ x : Int, bit (s.reg 0x10 0x01) 3 = true → x < -5500 ∨ 16000 < x → s.sec.trig.getLsbD 3 = false →
      Completes (.tempTamper x) s fun t =>
        t.sec.nvpend = true ∧ (∀ a, t.byte .s a = 0) ∧ bit t.com[16].status 3 = true ∧ KeepsOpen s t

/-- KEYPORT takes a key of eight words behind the lock, which stands in BANK-S in the byte order and at the place of log entry 80
(the model's choice), and refuses any other count, and BLANK and RETURNED, with KEYREJ. LCCMD takes a transition of the table and
refuses one not listed, and any while a transition is pending, a channel is ARMED, RUN or HOLD or FAIL_STOP holds, with LCREJ;
with a wrong KEY it sets LCREJ and changes nothing else (the model's reading, log entry 31). PAIR_OVERRIDE takes the word PAIRQ
outside RETURNED, and sets OVRREJ for anything else. Behind a closed lock each sets LKDROP alone. A completed erase clears
NVPEND. What stands in the wear partition of NVM, which R451 writes, no clause says. -/
def Obligations.SecureCommands : Prop :=
  ∀ (s : State) (m : Master) (v : Word), s.acts m = true → Settled s → Calm s →
    (∀ ws, ws.length = 8 → s.openFor bSec m = true → s.sec.life ≠ .blank → s.sec.life ≠ .returned →
      Stored s → Completes (.keyport m ws) s fun t =>
        t.secKey = some (ws.flatMap bytesBE) ∧ t.regs = s.regs ∧ SameStates s t
          ∧ ∀ b a, b ≠ .s → (b ≠ .nvm ∨ a < 0xE000) → t.byte b a = s.byte b a)
    ∧ (∀ ws, s.openFor bSec m = true → ws.length ≠ 8 ∨ s.sec.life = .blank ∨ s.sec.life = .returned →
      Completes (.keyport m ws) s fun t => bit t.com[16].status 7 = true ∧ t.sec.life = s.sec.life ∧ KeepsRest s t)
    ∧ (∀ ws, s.openFor bSec m = false → (Completes (.keyport m ws) s fun t => t.com[16].lkDrop = true ∧ KeepsRest s t)
      ∧ Completes (.lccmd m v) s fun t => t.com[16].lkDrop = true ∧ t.sec.life = s.sec.life ∧ KeepsRest s t)
    ∧ (s.openFor bSec m = true → fld v 16 16 = 0x4C43 →
      lifeAllows s.sec.life (fld v 0 3) = none ∨ s.sec.pend.isSome = true ∨ s.anyLive = true ∨ s.fcol.failStop = true →
      Completes (.lccmd m v) s fun t => bit t.com[16].status 14 = true ∧ t.sec.life = s.sec.life
        ∧ t.sec.pend = s.sec.pend ∧ t.sec.nvpend = s.sec.nvpend ∧ KeepsRest s t)
    ∧ (s.openFor bSys m = true → v ≠ s.pairq ∨ s.sec.life = .returned → Completes (.pairOverride m v) s fun t =>
      bit t.com[0].status 1 = true ∧ t.sys = s.sys ∧ KeepsRest s t)
    ∧ (s.openFor bSys m = false → Completes (.pairOverride m v) s fun t =>
      t.com[0].lkDrop = true ∧ t.sys = s.sys ∧ KeepsRest s t)
    ∧ (∀ x, s.openFor bSec m = true → fld v 16 16 = 0x4C43 → lifeAllows s.sec.life (fld v 0 3) = some x →
      s.sec.pend = none → s.anyLive = false → s.fcol.failStop = false → Completes (.lccmd m v) s fun t =>
        t.sec.life = x ∧ t.sec.nvpend = true ∧ t.sec.pend = some x ∧ (∀ b : Fin 53, t.com[b.val].lockOpen = false)
          ∧ t.regs = s.regs ∧ SameStates s t ∧ ∀ b a, b ≠ .s → (b ≠ .nvm ∨ a < 0xF000) → t.byte b a = s.byte b a)
    ∧ (s.openFor bSec m = true → fld v 16 16 ≠ 0x4C43 → Completes (.lccmd m v) s fun t =>
      t.sec.life = s.sec.life ∧ t.sec.nvpend = s.sec.nvpend ∧ bit t.com[16].status 14 = true ∧ KeepsRest s t)
    ∧ (s.openFor bSys m = true → v = s.pairq → s.sec.life ≠ .returned → Completes (.pairOverride m v) s fun t =>
      t.sys.unpaired = false ∧ t.sys.pairLog = s.sys.pairLog + 1
        ∧ bit t.com[16].status 13 = true ∧ t.regs = s.regs
        ∧ ∀ b a, b ≠ .s → b ≠ .c → (b ≠ .nvm ∨ a < 0xE000) → t.byte b a = s.byte b a)
    ∧ (s.sec.nvpend = true → s.sec.erasing = true → s.hk.restarting = false → s.pwr.state = .run → Stored s →
      (∀ w ∈ s.banks.bad, w.1 ≠ .s ∧ (w.1 = .nvm → 0xE000 ≤ w.2)) → Completes (.secureEraseDone []) s fun t =>
      t.sec.nvpend = false ∧ t.sec.pend = none ∧ bit t.com[16].status 4 = true
        ∧ (∀ a, 0xE000 ≤ a → a < 0xF000 → t.byte .nvm a = 0xFF)
        ∧ ∀ b a, (b ≠ .nvm ∨ a < 0xE000) → t.byte b a = s.byte b a)

/-- The mailbox: a command starts behind the lock and is refused while one runs; it ends with its RESULT. An erase leaves its
bytes erased, PROG its words in erased words, SEAL the digest of the calibration partition, and CFGCHK tells a good
configuration image; the arguments are those that stand at the end (the model's reading, log entry 30). The digest is over the
bytes of NVM in the order of log entry 10 (the model's reading) and stands in BANK-S at the place of log entry 80 (the model's
choice). The core restarts; a missed watchdog service is reported; the die temperature warns with DTWARN and, from 150 °C on,
with its own bit. -/
def Obligations.MailboxAndCore : Prop :=
  ∀ (s : State) (m : Master), Calm s →
    (s.acts m = true → Settled s → s.openFor bHk m = true → s.hk.cmd = none →
      (Completes (.erase m) s fun t => t.hk.cmd = some 1 ∧ KeepsRest s t)
      ∧ (Completes (.prog m) s fun t => t.hk.cmd = some 2 ∧ KeepsRest s t)
      ∧ (Completes (.sealCmd m) s fun t => t.hk.cmd = some 3 ∧ KeepsRest s t)
      ∧ Completes (.cfgchk m) s fun t => t.hk.cmd = some 4 ∧ KeepsRest s t)
    ∧ (s.acts m = true → Settled s → s.openFor bHk m = true → s.hk.cmd.isSome = true → Completes (.erase m) s fun t =>
      t.hk = s.hk ∧ bit t.com[17].status 1 = true ∧ KeepsRest s t)
    ∧ (∀ a e, s.works dHk = true → s.hk.restarting = false → s.hk.cmd = some 1 → s.nvm.dropped = false →
      s.mbRange 1 = some (a, e) → s.nvmAllowed a e = true → Stored s → Completes (.mailboxDone true []) s fun t =>
        t.hk.cmd = none ∧ t.hk.result = 0 ∧ t.nvm.busy = false ∧ bit t.com[17].status 0 = true
          ∧ (∀ x, a ≤ x → x < e → t.byte .nvm x = 0xFF)
          ∧ ∀ b x, (b ≠ .nvm ∨ x < a ∨ e ≤ x) → t.byte b x = s.byte b x)
    ∧ (s.works dHk = true → s.hk.restarting = false → s.nvm.dropped = false → (∀ w ∈ s.banks.bad, w.1 ≠ .nvm) →
      (∀ a e, s.hk.cmd = some 2 → s.mbRange 2 = some (a, e) → s.nvmAllowed a e = true → Stored s →
        (∀ i, i < (e - a) / 4 → s.mword .nvm (a + 4 * i) = 0xFFFFFFFF) → Completes (.mailboxDone true []) s fun t =>
          t.hk.cmd = none ∧ t.hk.result = 0 ∧ bit t.com[17].status 0 = true
            ∧ (∀ i, i < (e - a) / 4 → t.mword .nvm (a + 4 * i) = s.reg 0x11 (0x40 + i))
            ∧ ∀ b x, (b ≠ .nvm ∨ x < a ∨ e ≤ x) → t.byte b x = s.byte b x)
      ∧ (s.hk.cmd = some 3 → s.sec.life = .calibrated ∨ s.sec.life = .field → Stored s →
        Completes (.mailboxDone true []) s fun t =>
          t.hk.cmd = none ∧ t.hk.result = 0 ∧ t.secSeal = some (sha256 (s.mbytes .nvm 0 0x1000))
            ∧ ∀ b x, b ≠ .s → (b ≠ .nvm ∨ x < 0xE000) → t.byte b x = s.byte b x)
      ∧ (s.hk.cmd = some 4 → Completes (.mailboxDone true []) s fun t =>
          t.hk.cmd = none ∧ t.hk.result = (if s.configGood then 0 else 5) ∧ KeepsRest s t))
    ∧ (s.works dHk = true → s.hk.restarting = true → (∀ w ∈ s.banks.bad, w.1 ≠ .nvm
        ∧ w.1 ≠ .s) → Completes (.hkRestartDone []) s fun t =>
      t.hk.restarting = false ∧ bit t.com[17].status 4 = true ∧ ∀ a, t.byte .nvm a = s.byte .nvm a)
    ∧ (s.works dHk = true → Completes .watchdogMiss s fun t => t.com[17].capValid = true ∧ KeepsStores s t)
    ∧ ∀ x : Int, s.works dHk = true → Completes (.dietempSample x) s fun t =>
      t.hk.dieTemp = ofI16 (clampI (-32768) 32767 x) ∧ KeepsStores s t
        ∧ (15000 ≤ x → t.hk.hot = true ∧ (s.hk.hot = false → bit t.com[17].status 3 = true))
        ∧ (x ≤ 14500 → t.hk.hot = false)
        ∧ (sfld (s.reg 0x11 0x0D) 0 16 < clampI (-32768) 32767 x →
          t.hk.warn = true ∧ (s.hk.warn = false → bit t.com[17].status 2 = true))
        ∧ (clampI (-32768) 32767 x ≤ sfld (s.reg 0x11 0x0D) 0 16 - 500 → t.hk.warn = false)

/-! ### Power, clock, calendar -/

/-- Power: a domain whose power-good does not arrive is marked and sets PWR.STATUS bit 1; an entry completes in the state
chosen, with every lock closed in DOZE and SLEEP; ENTRY_ABORT gives it up with STATUS bit 2; the event timer and a pin of
R370 start an exit, with their cause in WAKESRC; NEXT_EVENT that has run out reads 0; WAKE_DONE is the return to RUN and,
where the event has passed, EVLATE; the dwell ends when its frames have passed. -/
def Obligations.PowerStates : Prop :=
  ∀ s : State, Calm s →
    (∀ d, s.pwr.failed.getLsbD d.val = false → Completes (.domainFail d) s fun t =>
      t.pwr.failed.getLsbD d.val = true ∧ bit t.com[2].status 1 = true ∧ KeepsStores s t)
    ∧ (s.pwr.entering = true → Completes .powerStateEntered s fun t =>
      t.pwr.state = s.pwr.chosen ∧ t.pwr.entering = false ∧ KeepsRest s t ∧
        (s.pwr.chosen = .doze ∨ s.pwr.chosen = .sleep → ∀ b : Fin 53, t.com[b.val].lockOpen = false))
    ∧ (∀ cause pin, s.pwr.entering = true → Completes (.entryAbort cause pin) s fun t =>
      t.pwr.entering = false ∧ t.pwr.chosen = .run ∧ bit t.com[2].status 2 = true ∧ KeepsRest s t)
    ∧ (s.pwr.entering = false → s.pwr.state ≠ .run → s.pwr.state ≠ .off → s.pwr.waking = none →
      (Completes .eventTimerWake s fun t =>
        t.pwr.waking = some (9, 0) ∧ t.pwr.wakeSrc = (put s.pwr.state.code 12 ||| put 9 0) ∧ KeepsRest s t)
      ∧ ∀ k, s.asleep = true → s.pinWakes k = true → s.works dIo24 = true → Completes (.io24Wake k) s fun t =>
        t.pwr.waking = some (3, BitVec.ofNat 3 k.val)
          ∧ t.pwr.wakeSrc = (put s.pwr.state.code 12 ||| put k.val 8 ||| put 3 0) ∧ KeepsRest s t)
    ∧ (s.coreOn = false ∨ s.pwr.nextEvent.toNat ≤ 1 → Completes .nextEventExpire s fun t =>
      t.pwr.nextEvent = 0 ∧ KeepsRest s t)
    ∧ (∀ code pin ms p late, s.pwr.waking = some (code, pin) → s.fcol.held = [] → Completes (.wakeDone ms p late) s fun t =>
      t.pwr.state = .run ∧ t.pwr.waking = none ∧ t.pwr.dwell = s.asleep ∧ t.pwr.settle = 50
        ∧ (late = true → bit t.com[2].status 3 = true) ∧ KeepsRest s t)
    ∧ (s.dwellOver = true → Completes .dwellEnd s fun t => t.pwr.dwell = false ∧ KeepsRest s t)

/-- The PLL, the crystals and VBAK: each failure sets its flag and its STATUS bit, each return of the PLL, of the RTC crystal and
of VBAK clears its flag. That VBAKLOW with its operand false is the return of VBAK, and that a further VBAKLOW sets its bit again,
is the model's choice (log entry 52). -/
def Obligations.ClockFailures : Prop :=
  ∀ s : State,
    (s.clk.pllUnlock = false → s.coreOn = true → Completes .pllunlock s fun t =>
      t.clk.pllUnlock = true ∧ bit t.com[1].status 8 = true ∧ t.com[1].capValid = true ∧ KeepsStores s t)
    ∧ (Calm s → Completes .pllRelock s fun t => t.clk.pllUnlock = false ∧ KeepsRest s t)
    ∧ (s.clk.xtalFail = false → s.pwr.state ≠ .sleep → s.pwr.state ≠ .off → Completes .xtalfail s fun t =>
      t.clk.xtalFail = true ∧ bit t.com[1].status 7 = true ∧ KeepsStores s t)
    ∧ (s.pwr.state ≠ .off → Completes (.vbaklow true) s fun t =>
      t.clk.vbakLow = true ∧ bit t.com[1].status 4 = true ∧ KeepsStores s t)
    ∧ (s.pwr.state ≠ .off → Calm s → Completes (.vbaklow false) s fun t => t.clk.vbakLow = false ∧ KeepsRest s t)
    ∧ (s.clk.rtcStop = false → Completes .rtcstop s fun t =>
      t.clk.rtcStop = true ∧ bit t.com[1].status 6 = true ∧ KeepsStores s t)
    ∧ (Calm s → Completes .rtcCrystalReturn s fun t => t.clk.rtcStop = false ∧ KeepsRest s t)

/-- The calendar: both TIME words of one commit load it, one alone sets SETREJ; with TRIM 0 each period of the crystal
counts two fraction units; an alarm passed sets STATUS bit 0; a tick passed sets the latch of source 80 where its priority
lets it, and in DOZE and SLEEP is held for the return to RUN; SYNCEN cleared ends tracking. -/
def Obligations.CalendarCounts : Prop :=
  ∀ s : State, Calm s →
    (∀ m lo hi, s.acts m = true → Completes (.timeLoad m (some lo) (some hi)) s fun t =>
      t.clk.sec = hi.extractLsb' 16 16 ++ lo ∧ t.clk.frac = hi.extractLsb' 0 16 &&& 0xFFFE ∧ t.clk.notLoaded = false
        ∧ KeepsRest s t)
    ∧ (∀ m lo, s.acts m = true → Completes (.timeLoad m (some lo) none) s fun t =>
      t.clk = s.clk ∧ bit t.com[1].status 9 = true ∧ KeepsRest s t)
    ∧ (∀ m v, s.acts m = true → Settled s → Stored s → bit v 0 = false → Completes (.syncenWrite m v) s fun t =>
      bit (t.reg 1 1) 0 = false ∧ (bit (s.reg 1 1) 0 = true → t.clk.aligned = false ∧ t.clk.pllTrim = 0))
    ∧ ∀ n, s.clk.rtcStop = false → s.calTrim = 0 →
      (Completes (.calendarAlarm n) s fun t => t.cal = (s.cal + 2 * n) % 2 ^ 64 ∧ KeepsRest s t ∧
        (bit (s.reg 1 1) 2 = true → s.cal < s.alarmAt → s.alarmAt ≤ s.cal + 2 * n → bit t.com[1].status 0 = true))
      ∧ Completes (.calendarTick n) s fun t => t.cal = (s.cal + 2 * n) % 2 ^ 64 ∧ KeepsRest s t
        ∧ (s.cal / s.tickUnits < (s.cal + 2 * n) / s.tickUnits →
          if s.asleep then t.clk.tickHeld = true else s.prio 80 ≠ 0 → t.irq.latch.getLsbD 80 = true)

/-! ### Field I/O and fixture -/

/-- IO24: every SPER-th instant of 10 µs is a sample and moves the counter filter, PCFG restarts it,
wire break and its end, overload, OVLRST, SAFEREL, and the L+ supply. That IO24_WIRE_BREAK with its operand gone is the end of a
wire break is the model's choice (log entry 52). -/
def Obligations.FieldPins : Prop :=
  ∀ (s : State) (k : Fin 8), Calm s →
    (∀ hi, s.samples = true → s.isOut k = false → s.io.pins[k.val].phase + 1 < ioPeriod (s.pcfg k) →
      Completes (.io24Edge k [hi]) s fun t =>
        t.io.pins[k.val].integ = s.io.pins[k.val].integ ∧ t.io.pins[k.val].filt = s.io.pins[k.val].filt
          ∧ t.io.pins[k.val].raw = hi ∧ t.regs = s.regs ∧ SameBytes s t)
    ∧ (∀ hi, s.samples = true → s.isOut k = false → ioPeriod (s.pcfg k) ≤ s.io.pins[k.val].phase + 1 →
      Completes (.io24Edge k [hi]) s fun t =>
        let q := s.io.pins[k.val].sample (ioThresholds (s.pcfg k)).1 (ioThresholds (s.pcfg k)).2 hi
        t.io.pins[k.val].integ = q.integ ∧ t.io.pins[k.val].filt = q.filt ∧ t.io.pins[k.val].raw = hi
          ∧ (q.filt ≠ s.io.pins[k.val].filt → bit t.com[8].status k.val = true) ∧ t.regs = s.regs ∧ SameBytes s t)
    ∧ (∀ m v, s.acts m = true → s.ready = true → Settled s → Stored s → Completes (.pcfgWrite m k v) s fun t =>
      t.pcfg k = mix (s.pcfg k) v 0xEDFCFFFF ∧ t.io.pins[k.val].integ = 0 ∧ t.io.pins[k.val].filt = false)
    ∧ (s.isOut k = false → bit (s.pcfg k) 29 = true → s.samples = true → s.io.pins[k.val].wb = false →
      Completes (.io24WireBreak k false) s fun t =>
        t.io.pins[k.val].wb = true ∧ bit t.com[8].status (8 + k.val) = true ∧ KeepsStores s t)
    ∧ (s.isOut k = false → bit (s.pcfg k) 29 = true → s.samples = true → s.io.pins[k.val].wb = true →
      Completes (.io24WireBreak k true) s fun t => t.io.pins[k.val].wb = false ∧ KeepsRest s t)
    ∧ (∀ thermal, s.isOut k = true → s.outLevel k = true → Completes (.io24Overload k thermal) s fun t =>
      (if thermal then t.io.pins[k.val].ovlT else t.io.pins[k.val].ovlC) = true ∧ t.outLevel k = false
        ∧ bit t.com[8].status (16 + k.val) = true ∧ KeepsStores s t)
    ∧ (∀ m v hot, s.acts m = true → bit v k.val = true → hot.getLsbD k.val = false → Completes (.ovlrst m v hot) s fun t =>
      t.io.pins[k.val].ovlT = false ∧ t.io.pins[k.val].ovlC = false ∧ t.regs = s.regs)
    ∧ (∀ m v, s.acts m = true → Settled s → bit v 1 = true → s.safeHolds k = false → Completes (.saferel m v) s fun t =>
      t.io.pins[k.val].safeLatch = false ∧ t.regs = s.regs)
    ∧ (s.io.lpMiss = false → Completes .lpMissing s fun t =>
      t.io.lpMiss = true ∧ t.io.lpLow = true ∧ bit t.com[8].status 24 = true ∧ KeepsStores s t)
    ∧ (s.io.lpMiss = true → Completes .lpReturn s fun t => t.io.lpMiss = false ∧ t.regs = s.regs)
    ∧ (s.io.lpLow = false → Completes .lpLow s fun t =>
      t.io.lpLow = true ∧ bit t.com[8].status 25 = true ∧ t.regs = s.regs)

/-- The fixture port: REREAD, clamp close and open, with CRMAX and CRRUN of an open that no sequence delays, a sequence with no
tag, a bad header, a tag that answers the challenge and one that does not, its end, the override, which is in force once
accepted and whose count wraps (the model's choice, log entry 79), lost arbitration, and a stuck bus, with the tag address of the
transfer lost sixteen times in DETAIL. That PASS falls where no
tag or a bad header is found is the model's reading (log entry 89). -/
def Obligations.FixturePort : Prop :=
  ∀ s : State, Calm s →
    (∀ m v, s.acts m = true → Settled s → bit v 0 = true → s.fixEn = true → s.fix.running = none →
      Completes (.reread m v) s fun t =>
      t.fix.running = some .plain ∧ KeepsRest s t)
    ∧ (s.coreOn = true → s.clampMoved = true → s.clampClosed = true → Completes .clampClose s fun t =>
      (∀ n : Chan, (t.cell n).meas.cresValid = false ∧ (t.cell n).meas.cres = 0) ∧ KeepsRest s t ∧
        (s.fixEn = true → bit (s.reg 7 8) 6 = true → s.fix.running = none → SeqKind.clampClose ∉ s.fix.waiting →
          t.fix.running = some .clampClose ∧ t.fix.state = 1))
    ∧ (s.coreOn = true → s.clampMoved = true → s.clampClosed = false → s.fix.running.isSome = true →
      Completes .clampOpen s fun t =>
      t.fix.waiting = s.fix.waiting ++ [.clampOpen] ∧ KeepsRest s t)
    ∧ (s.coreOn = true → s.clampMoved = true → s.clampClosed = false → s.fix.running = none → Completes .clampOpen s fun t =>
      KeepsRest s t ∧ (s.contactValues = [] → t.fix.crMax = s.fix.crMax ∧ t.fix.crRun = s.fix.crRun)
        ∧ ∀ m ∈ s.contactValues, (∀ y ∈ s.contactValues, y ≤ m) → t.fix.crMax = BitVec.ofInt 32 m
          ∧ t.fix.crRun = (if s.fix.crLim ≠ 0 ∧ s.fix.crLim.toInt < m then
            (if s.fix.crRun = 255 then 255 else s.fix.crRun + 1) else 0))
    ∧ (∀ k x, s.portRuns = true → s.fix.running = some k → s.fix.result = none → x.ups = [] →
      (x.data = none → Completes (.fixtureSequence x) s fun t => t.fix.result = some 0 ∧ t.fix.pass = false ∧ KeepsRest s t)
      ∧ (∀ d, x.data = some d → headerGood d = false → Completes (.fixtureSequence x) s fun t =>
        t.fix.result = some 0 ∧ t.fix.pass = false ∧ bit t.com[7].status 5 = true ∧ KeepsStores s t)
      ∧ ∀ d key, x.data = some d → headerGood d = true → (∀ w ∈ s.banks.bad, w.1 ≠ .s) → s.secKey = some key →
        (∀ c, authGood key d x.tries = true → currentCopy d = some c → k ≠ .clampClose →
          Completes (.fixtureSequence x) s fun t =>
            t.fix.pass = true ∧ t.fix.serial = BitVec.ofNat 64 (tagNat d 4 8) ∧ t.fix.cycles = BitVec.ofNat 32 c.1.cycles
              ∧ t.fix.days = BitVec.ofNat 16 c.1.days ∧ t.fix.result = some t.fix.wear ∧ KeepsRest s t)
        ∧ (authGood key d x.tries = false → Completes (.fixtureSequence x) s fun t =>
          t.fix.result = some 1 ∧ t.fix.pass = false ∧ bit t.com[7].status 2 = true ∧ KeepsStores s t))
    ∧ (∀ k r, s.portRuns = true → s.fix.running = some k → s.fix.result = some r → s.fix.waiting = [] →
      Completes .fixtureSequenceEnd s fun t =>
        t.fix.state = r ∧ t.fix.running = none ∧ bit t.com[7].status 1 = true
          ∧ (r ≠ s.fix.before → bit t.com[7].status 0 = true) ∧ KeepsRest s t)
    ∧ (∀ m v, s.acts m = true → Settled s → s.openFor bFix m = true →
      (bit v 0 = false → Completes (.override m v) s fun t => t.fix.ovr = false ∧ KeepsRest s t)
      ∧ (bit v 0 = true → s.fixEn = true → s.fix.state = 4 → v.extractLsb' 16 16 = s.fix.serial.setWidth 16 →
        Completes (.override m v) s fun t => t.fix.ovr = true ∧ t.fix.ovrTime = s.timeL
          ∧ t.fix.ovrCnt = s.fix.ovrCnt + 1 ∧ bit t.com[7].status 8 = true))
    ∧ (s.portRuns = true → s.fix.running.isSome = true → s.fix.losses < 15 → Completes .arbRetry s fun t =>
      t.fix.losses = s.fix.losses + 1 ∧ bit t.com[7].status 3 = true ∧ KeepsRest s t)
    ∧ (s.portRuns = true → s.fixEn = true → Completes (.fixtureBusStuck false none) s fun t =>
      bit t.com[7].status 7 = true ∧ KeepsStores s t)
    ∧ (∀ a : Byte, s.portRuns = true → s.fixEn = true → s.fix.running.isSome = true → 15 ≤ s.fix.losses →
      Completes (.fixtureBusStuck false (some a)) s fun t =>
        bit t.com[7].status 3 = true ∧ bit t.com[7].status 7 = true ∧ t.fix.state = 1
          ∧ (s.com[7].capValid = false → t.com[7].capValid = true ∧ fld (t.com[7].detail.setWidth 32) 8 8 = a.toNat)
          ∧ KeepsStores s t)

/-! ### Management bus -/

/-- Reads on the management bus: a summary is a block with its PEC; ALERT, ESTOP, the alert response address and a register
read; a read that breaks the protocol sends nothing and sets BADCMD or PROTO; address match, timeout, host idle and the
release of SCL. -/
def Obligations.MgmtReads : Prop :=
  ∀ s : State, s.mgmtOn = true → s.sys.stage ≠ 0xF0 →
    (∀ c code data, (c, code, data) ∈ [(Instr.ident none, 0, State.identBytes), (.faultsum none, 1, State.faultBytes),
        (.temps none, 2, State.tempBytes), (.benchsum none, 3, State.benchBytes), (.chstate none, 4, State.stateBytes)] →
      Completes c s fun t =>
        let block := blockOf (data (beginTx s))
        t.mgmt.out = block ++ [pec ([s.addrByte false, BitVec.ofNat 8 code, s.addrByte true] ++ block)]
          ∧ t.mgmt.ack = true ∧ t.mgmt.txCnt = satW s.mgmt.txCnt ∧ t.regs = s.regs)
    ∧ (Completes (.alertRead none) s fun t => t.mgmt.out.take 1 = [BitVec.ofNat 8 s.mgmt.alertSrc.toNat] ∧ t.regs = s.regs)
    ∧ (Completes (.estopRead none) s fun t => t.mgmt.out.take 1 = [if s.mgmt.stop then 1 else 0] ∧ t.regs = s.regs)
    ∧ (∀ c ∈ [Instr.ident, .faultsum, .temps, .benchsum, .chstate, .alertRead, .estopRead],
      (Completes (c (some .protocol)) s fun t => t.mgmt.out = [] ∧ bit t.com[6].status 4 = true ∧ t.regs = s.regs)
      ∧ ∀ k, Completes (c (some (.proto k))) s fun t => t.mgmt.out = [] ∧ bit t.com[6].status 0 = true ∧ KeepsStores s t)
    ∧ (s.alert = true → (Completes (.alertResponse true none) s fun t =>
        t.mgmt.out = [s.addrByte false] ∧ t.mgmt.ack = true ∧ t.regs = s.regs)
      ∧ ∀ won k, Completes (.alertResponse won (some k)) s fun t =>
        t.mgmt.out = [] ∧ bit t.com[6].status 0 = true ∧ t.com[6].capValid = true ∧ KeepsStores s t)
    ∧ (s.alert = false → ∀ won p, Completes (.alertResponse won p) s fun t =>
      t.mgmt.ack = false ∧ t.mgmt.out = [] ∧ t.regs = s.regs)
    ∧ (∀ a : Nat, ∀ n : Nat, s.banks.bad = [] → a < 2 ^ 18 → 1 ≤ n → n ≤ 252 → (a + n - 1) / 1024 = a / 1024 →
      Completes (.readReg ⟨[4, BitVec.ofNat 8 a, BitVec.ofNat 8 (a / 256), BitVec.ofNat 8 (a / 65536), BitVec.ofNat 8 n],
          none, none, false, [], 0, []⟩) s fun t =>
        t.mgmt.out.take (n + 1) = BitVec.ofNat 8 n :: (List.range n).map (fun i => (beginTx s).windowByte (a + i))
          ∧ t.mgmt.ack = true ∧ t.regs = s.regs)
    ∧ (Completes (.mgmtAddressMatch false) s fun t => t.mgmt.stretch = s.asleep ∧ t.regs = s.regs
      ∧ (s.asleep = true → s.pwr.entering = false → s.pwr.waking = none →
        t.pwr.waking = some (2, 0) ∧ t.pwr.wakeSrc = (put s.pwr.state.code 12 ||| put 2 0)))
    ∧ (∀ code idx : Byte, Completes (.mgmtTimeout code idx) s fun t =>
      bit t.com[6].status 3 = true ∧ t.mgmt.sclLow = true ∧ KeepsStores s t ∧ (s.com[6].capValid = false →
        t.com[6].detail = BitVec.ofNat 23 (4 * 2 ^ 19 + code.toNat * 2 ^ 8 + idx.toNat)))
    ∧ (s.regF 6 8 16 16 ≠ 0 → s.coreOn = true → Completes .hostidle s fun t =>
      t.mgmt.cond.getLsbD 5 = true ∧ (s.mgmt.cond.getLsbD 5 = false → t.mgmt.alertSrc.getLsbD 5 = true) ∧ t.regs = s.regs)
    ∧ Completes .sclRelease s fun t => t.mgmt.stretch = false ∧ t.mgmt.sclLow = false ∧ t.regs = s.regs

/-- Writes on the management bus: ALERT clears what is written 1 and no longer rises; ESTOP sets the stop latch without a PEC
and clears it with one; register writes need WREN, and WRITE_REG and WRITE_PORT reach the recipe table. A write whose command
byte is not acknowledged sets BADCMD and does nothing else. -/
def Obligations.MgmtWrites : Prop :=
  ∀ s : State, s.mgmtOn = true → s.sys.stage ≠ 0xF0 →
    (∀ b0 b1, bit (s.reg 6 8) 0 = false → Completes (.alertWrite ⟨[b0, b1], none, none, false, [], 0, []⟩) s fun t =>
      (∀ i, i < 7 → b0.getLsbD i = true → s.mgmt.cond.getLsbD i = true → t.mgmt.alertSrc.getLsbD i = false) ∧ t.regs = s.regs)
    ∧ (∀ p, GangsShare s → p = none ∨ p = some (pec [s.addrByte false, 0x10, 0xA5]) →
      Completes (.estopSet ⟨[0xA5], p, none, false, [], 0, []⟩) s fun t =>
      t.mgmt.stop = true ∧ bit t.com[6].status 6 = true
        ∧ (∀ n : Chan, (t.cell n).seq.state = .safe ∨ (t.cell n).seq.state = .fault) ∧ KeepsStores s t)
    ∧ (Completes (.estopClear ⟨[0x5A], some (pec [s.addrByte false, 0x10, 0x5A]), none, false, [], 0, []⟩) s fun t =>
      t.mgmt.stop = false ∧ t.regs = s.regs)
    ∧ (Completes (.estopClear ⟨[0x5A], none, none, false, [], 0, []⟩) s fun t =>
      t.mgmt.stop = s.mgmt.stop ∧ bit t.com[6].status 2 = true ∧ t.regs = s.regs)
    ∧ (∀ x, x.nack = true → Calm s →
      ∀ c ∈ [Instr.alertWrite, .estopSet, .estopClear, .readReg, .writeReg, .writePort],
        Completes (c x) s fun t => bit t.com[6].status 4 = true ∧ t.mgmt.ack = false ∧ KeepsRest s t)
    ∧ (∀ x, bit (s.reg 6 8) 1 = false → x.nack = false → x.proto = none → writeNeed x ≤ (x.data ++ x.pec.toList).length → Calm s →
      (Completes (.writeReg x) s fun t => t.mgmt.ack = true ∧ bit t.com[6].status 5 = true ∧ KeepsRest s t)
      ∧ Completes (.writePort x) s fun t => t.mgmt.ack = true ∧ bit t.com[6].status 5 = true ∧ KeepsRest s t)
    ∧ (∀ o v, o ∈ [(0x01 : Byte), 0x08, 0x0A] → Settled s → Completes (.registerWrite ⟨.mgmt, 6, o, v⟩ 0 [] [] 0) s fun t =>
      t.regs = s.regs)
    ∧ (∀ a : Nat, ∀ v : Word, bit (s.reg 6 8) 0 = false → bit (s.reg 6 8) 1 = true → Settled s → Calm s → Stored s →
        a < 0x8000 → a % 4 = 0 →
      let d : List Byte := [7, BitVec.ofNat 8 a, BitVec.ofNat 8 (a / 256), 2] ++ bytesLE v
      (Completes (.writeReg ⟨d, none, none, false, [], 0, []⟩) s fun t => t.mword .r a = v ∧ t.regs = s.regs ∧
        ∀ b x, (b ≠ .r ∨ x < a ∨ a + 4 ≤ x) → t.byte b x = s.byte b x)
      ∧ Completes (.writePort ⟨d, none, none, false, [], 0, []⟩) s fun t => t.mword .r a = v ∧ t.regs = s.regs)

/-! ### Register writes -/

/-- REGISTER_WRITE: STATUS bits written 1 clear unless hardware sets them in the same cycle, COLLIDE by a write that met an
owner's (on page FCOL: where no report meets the write; on pages IO24 and PWR, whose bits what a command leads to can set
too: those that the write sets or leaves stand); a word of the recipe table takes the value; a page that does not exist
takes nothing. Of ordinary words: LEAF.CONFIRM, PWR.GUARD, PWR.LEAFMARGIN, CH[n].CRES_CFG, CH[n].CAPT_CFG, FIX.CHMAP, IO24.OUT,
HK.MBARG0 and BENCH.QWAIT store their fields, and their reserved bits stay 0; SEC.TCFG, FCOL.SHADOW, CH[n].RLIM_WIN and
IO24.SAFEVAL, LK words, do so behind an open lock of the master, and behind a closed one only set LKDROP. -/
def Obligations.RegisterWrites : Prop :=
  ∀ (s : State) (m : Master) (v sets : Word) (coll : BitVec 4), s.acts m = true → Settled s → Calm s →
    (∀ (p : Byte) (b : Fin 53), pageBlk p.toNat = some b → b ≠ bIo24 → b ≠ bPwr →
      (b = bFcol → sets = 0) →
      Completes (.registerWrite ⟨m, p, 2, v⟩ sets [] [] coll) s fun t =>
        (∀ i, i < 32 → bit (statusMask b) i = true →
          bit t.com[b.val].status i = (bit sets i || decide (b = bMem ∧ i = 4 ∧ coll ≠ 0)
            || (bit s.com[b.val].status i && !bit v i))) ∧ KeepsRest s t)
    ∧ (∀ (p : Byte) (b : Fin 53), pageBlk p.toNat = some b → b = bIo24 ∨ b = bPwr →
      Completes (.registerWrite ⟨m, p, 2, v⟩ sets [] [] coll) s fun t =>
        (∀ i, i < 32 → bit (statusMask b) i = true → (bit sets i || (bit s.com[b.val].status i && !bit v i)) = true →
          bit t.com[b.val].status i = true) ∧ KeepsRest s t)
    ∧ (∀ p o : Byte, Stored s → 0x80 ≤ p.toNat → p.toNat < 0xA0 →
        Completes (.registerWrite ⟨m, p, o, v⟩ sets [] [] coll) s fun t =>
      t.mword .r ((p.toNat - 0x80) * 1024 + 4 * o.toNat) = v ∧ t.regs = s.regs)
    ∧ (∀ p o : Byte, pageBlk p.toNat = none → (p.toNat < 0x80 ∨ 0xA0 ≤ p.toNat) →
      Completes (.registerWrite ⟨m, p, o, v⟩ sets [] [] coll) s fun t => KeepsRest s t)
    ∧ (∀ (n : Chan) (p o : Byte) (mask : Word), (p, o, mask) ∈ [((0x0C : Byte), (0x0B : Byte), (0xFFFFFFFF : Word)),
        (0x02, 0x0A, 0x00FFFFFF), (0x02, 0x11, 0xFFFF), (0x20 + BitVec.ofNat 8 n.val, 0x72, 0xFFFF),
        (0x20 + BitVec.ofNat 8 n.val, 0x76, 0xFFFF), (0x07, 0x10, 0xFFFFFFFF), (0x08, 0x11, 0xFF), (0x11, 0x09, 0xFFFFFFFF),
        (0x0B, 0x2B, 0xFFFF)] →
      Stored s → s.reg p.toNat o.toNat &&& ~~~ mask = 0 → Completes (.registerWrite ⟨m, p, o, v⟩ sets [] [] coll) s fun t =>
        t.readWord p.toNat o.toNat = v &&& mask ∧ SameStates s t ∧ SameBytes s t ∧ t.link = s.link ∧ t.log = s.log)
    ∧ ∀ (n : Chan) (p o : Byte) (b : Fin 53) (mask : Word), (p, o, b, mask) ∈
        [((0x10 : Byte), (0x0A : Byte), bSec, (0x71 : Word)), (0x04, 0x0D, bFcol, 0xFFFF),
          (0x20 + BitVec.ofNat 8 n.val, 0x2D, chB (dr n), 0x03FF03FF), (0x08, 0x12, bIo24, 0xFF)] →
      (Stored s → s.openFor b m = true → s.reg p.toNat o.toNat &&& ~~~ mask = 0 →
        Completes (.registerWrite ⟨m, p, o, v⟩ sets [] [] coll) s fun t =>
          t.readWord p.toNat o.toNat = v &&& mask ∧ SameStates s t ∧ SameBytes s t ∧ t.link = s.link ∧ t.log = s.log)
      ∧ (Stored s → s.openFor b m = false → Completes (.registerWrite ⟨m, p, o, v⟩ sets [] [] coll) s fun t =>
        t.com[b.val].lkDrop = true ∧ KeepsRest s t)

/-- ERR_CNT as a write sets it, and as it then reads back. -/
def Obligations.ErrCntWrites : Prop :=
  ∀ (s : State) (m : Master) (p : Byte) (b : Fin 53) (v : Word) (coll : BitVec 4), s.acts m = true → pageBlk p.toNat = some b →
    Settled s → Calm s →
    Completes (.registerWrite ⟨m, p, 6, v⟩ 0 [] [] coll) s fun t =>
      let w := t.readWord p.toNat 6
      fld w 16 8 = (if fld v 16 8 = 0 then 1 else fld v 16 8)
        ∧ fld w 0 16 = (if fld v 0 16 = 0 then 1 else if 60000 < fld v 0 16 then 60000 else fld v 0 16) ∧ KeepsRest s t

/-- The fabric: a write of a master that cannot act (the host link while its endpoint does not work, the core while it does not
run, the management bus in OFF and HALT) changes nothing: what follows it is what settles after every command, whatever the
command is. That such a write is dropped is the model's reading of R20, R419 and R437 (log entry 96). -/
def Obligations.MastersAct : Prop :=
  ∀ (s : State) (m : Master) (v : Word) (n : Drawer) (b : Fin 53), s.acts m = false → Settled s → Calm s →
    (∀ c ∈ [Instr.arm m n, .start m n, .stop m n, .pause m n, .resume m n, .safe m n, .clear m n, .cfgWrite m n v, .rstcmd m v,
        .softset m v, .gieWrite m v, .eoi m v, .fsnow m v, .fsexit m v, .inject m v, .lockOpen m b v, .lockClose m b v,
        .marchGo m, .marchStop m, .lccmd m v, .pairOverride m v, .erase m, .prog m, .sealCmd m, .cfgchk m, .leafEnClear m,
        .hresReq m v, .hresCancel m v, .syncenWrite m v, .saferel m v, .reread m v, .override m v, .imgctrlRestart m,
        .errCapRearm m b none], Completes c s (Settles s))
    ∧ ∀ (p o : Byte) (sets : Word) (coll : BitVec 4) (ws : List Word) (lo hi : Option Word) (k : Fin 8) (w : Fin 4) (x : Fin 16)
        (u : Bool) (hot d : Byte) (cl : FClass) (ups : List Upset),
      ∀ c ∈ [Instr.registerWrite ⟨m, p, o, v⟩ sets [] [] coll, .keyport m ws, .timeLoad m lo hi, .pcfgWrite m k v,
          .prioWrite m x v, .maskWrite m w v, .pendClear m w v 0, .captureRearm m cl [], .checkPort m u ws coll,
          .ovlrst m v hot, .imgctrlEnd m d ups], Completes c s (Settles s)
end

