-- ==== Sys2Proof/Laws/Sparse.lean ====
section
/-! SUPPORT. Laws of the sparse maps that hold the memory banks and the register store: read after write, and the
canonical form. -/

namespace Sys2Proof.Machine

variable {α : Type} [DecidableEq α] {d : Nat → α}

theorem sparseWf_cons {lo k : Nat} {v : α} {m : List (Nat × α)} :
    sparseWf d lo ((k, v) :: m) = true ↔ lo ≤ k ∧ v ≠ d k ∧ sparseWf d (k + 1) m = true := by
  simp [sparseWf, and_assoc]

theorem sparseWf_mono {lo lo' : Nat} {m : List (Nat × α)} (h : lo' ≤ lo) (hw : sparseWf d lo m = true) :
    sparseWf d lo' m = true := by
  cases m with
  | nil => rfl
  | cons e m =>
    obtain ⟨k, v⟩ := e
    rw [sparseWf_cons] at hw ⊢
    exact ⟨le_trans h hw.1, hw.2⟩

/-- An address below the bound reads as an unlisted one. -/
theorem sparseGet_below {lo a : Nat} {m : List (Nat × α)} (hw : sparseWf d lo m = true) (h : a < lo) :
    sparseGet d m a = d a := by
  cases m with
  | nil => rfl
  | cons e m =>
    obtain ⟨k, v⟩ := e
    rw [sparseWf_cons] at hw
    have h1 : k ≠ a := by omega
    have h2 : a < k := by omega
    simp [sparseGet, h1, h2]

/-- A write keeps the canonical form. -/
theorem sparsePut_wf {a : Nat} {v : α} : ∀ {lo : Nat} {m : List (Nat × α)}, sparseWf d lo m = true → lo ≤ a →
    sparseWf d lo (sparsePut d a v m) = true
  | lo, [], _, h => by
    unfold sparsePut
    split
    · rfl
    · simp [sparseWf, *]
  | lo, (k, w) :: m, hw, h => by
    rw [sparseWf_cons] at hw
    unfold sparsePut
    split
    · split
      · rw [sparseWf_cons]; exact hw
      · rw [sparseWf_cons, sparseWf_cons]
        exact ⟨h, ‹_›, by omega, hw.2⟩
    · split
      · split
        · exact sparseWf_mono (by omega) hw.2.2
        · rw [sparseWf_cons]; subst k; exact ⟨h, ‹_›, hw.2.2⟩
      · rw [sparseWf_cons]
        exact ⟨hw.1, hw.2.1, sparsePut_wf hw.2.2 (by omega)⟩

/-- The written address reads as written. -/
theorem sparseGet_put_same {a : Nat} {v : α} : ∀ {lo : Nat} {m : List (Nat × α)}, sparseWf d lo m = true →
    sparseGet d (sparsePut d a v m) a = v
  | lo, [], _ => by
    unfold sparsePut
    split
    · simp [sparseGet, *]
    · simp [sparseGet]
  | lo, (k, w) :: m, hw => by
    rw [sparseWf_cons] at hw
    unfold sparsePut
    split
    · have : k ≠ a := by omega
      split
      · simp [sparseGet, *]
      · simp [sparseGet]
    · split
      · split
        · rename_i hk hv
          rw [sparseGet_below hw.2.2 (by omega)]; exact hv.symm
        · simp [sparseGet]
      · have h1 : ¬ a < k := by assumption
        have h2 : k ≠ a := by assumption
        simp only [sparseGet, h2, h1, if_false]
        exact sparseGet_put_same hw.2.2

/-- Every other address reads as before. -/
theorem sparseGet_put_other {a b : Nat} {v : α} (hab : b ≠ a) : ∀ {lo : Nat} {m : List (Nat × α)},
    sparseWf d lo m = true → sparseGet d (sparsePut d a v m) b = sparseGet d m b
  | lo, [], _ => by
    have : a ≠ b := fun h => hab h.symm
    unfold sparsePut
    split
    · rfl
    · simp [sparseGet, this]
  | lo, (k, w) :: m, hw => by
    have hba : a ≠ b := fun h => hab h.symm
    rw [sparseWf_cons] at hw
    unfold sparsePut
    split
    · split
      · rfl
      · rw [sparseGet]
        simp only [hba, if_false]
        split
        · rename_i h1 h2
          have h3 : k ≠ b := by omega
          have h4 : b < k := by omega
          simp [sparseGet, h3, h4]
        · rfl
    · split
      · rename_i h1 h2
        subst h2
        by_cases hlt : b < k
        · split
          · rw [sparseGet_below hw.2.2 (by omega)]; simp [sparseGet, hba, hlt]
          · simp [sparseGet, hba, hlt]
        · split
          · simp [sparseGet, hba, hlt]
          · simp [sparseGet, hba, hlt]
      · simp only [sparseGet]
        split
        · rfl
        · split
          · rfl
          · exact sparseGet_put_other hab hw.2.2

theorem sparsePutMany_wf {lo : Nat} : ∀ {vs : List α} {a : Nat} {m : List (Nat × α)}, sparseWf d lo m = true → lo ≤ a →
    sparseWf d lo (sparsePutMany d a vs m) = true
  | [], _, _, hw, _ => hw
  | v :: vs, a, m, hw, h => by rw [sparsePutMany]; exact sparsePutMany_wf (sparsePut_wf hw h) (by omega)

/-- What an address reads as after consecutive writes. -/
theorem sparseGet_putMany {lo : Nat} : ∀ {vs : List α} {a b : Nat} {m : List (Nat × α)}, sparseWf d lo m = true → lo ≤ a →
    sparseGet d (sparsePutMany d a vs m) b = if a ≤ b then (vs[b - a]?).getD (sparseGet d m b) else sparseGet d m b
  | [], a, b, m, _, _ => by simp [sparsePutMany]
  | v :: vs, a, b, m, hw, h => by
    rw [sparsePutMany, sparseGet_putMany (sparsePut_wf hw h) (by omega : lo ≤ a + 1)]
    by_cases hb : b = a
    · subst hb
      have : ¬ b + 1 ≤ b := by omega
      simp [this, sparseGet_put_same hw]
    · rw [sparseGet_put_other hb hw]
      by_cases hlt : a ≤ b
      · have h1 : a + 1 ≤ b := by omega
        have h2 : b - a = (b - (a + 1)) + 1 := by omega
        simp [hlt, h1, h2]
      · have h1 : ¬ a + 1 ≤ b := by omega
        simp [hlt, h1]

theorem sparseDrop_wf {a b : Nat} : ∀ {lo : Nat} {m : List (Nat × α)}, sparseWf d lo m = true →
    sparseWf d lo (sparseDrop a b m) = true
  | _, [], _ => rfl
  | lo, (k, v) :: m, hw => by
    rw [sparseWf_cons] at hw
    have ih : sparseWf d (k + 1) (sparseDrop a b m) = true := sparseDrop_wf hw.2.2
    unfold sparseDrop at ih ⊢
    rw [List.filter_cons]
    split
    · rw [sparseWf_cons]; exact ⟨hw.1, hw.2.1, ih⟩
    · exact sparseWf_mono (by omega) ih

/-- A dropped range reads as unlisted addresses, every other address as before. -/
theorem sparseGet_drop {a b x : Nat} : ∀ {lo : Nat} {m : List (Nat × α)}, sparseWf d lo m = true →
    sparseGet d (sparseDrop a b m) x = if a ≤ x ∧ x < b then d x else sparseGet d m x
  | _, [], _ => by simp [sparseDrop, sparseGet]
  | lo, (k, v) :: m, hw => by
    rw [sparseWf_cons] at hw
    have ih := sparseGet_drop (a := a) (b := b) (x := x) hw.2.2
    have hd : sparseWf d (k + 1) (sparseDrop a b m) = true := sparseDrop_wf hw.2.2
    unfold sparseDrop at ih hd ⊢
    rw [List.filter_cons]
    split
    · rename_i hk
      simp only [Bool.or_eq_true, decide_eq_true_eq] at hk
      rw [sparseGet, sparseGet, ih]
      by_cases h1 : k = x
      · have : ¬ (a ≤ x ∧ x < b) := by omega
        simp [h1, this]
      · by_cases h2 : x < k
        · simp [h1, h2]
        · simp [h1, h2]
    · rename_i hk
      simp only [Bool.or_eq_true, decide_eq_true_eq, not_or] at hk
      rw [ih]
      by_cases h0 : a ≤ x ∧ x < b
      · simp [h0]
      · have h1 : k ≠ x := by omega
        simp only [h0, if_false, sparseGet, h1]
        split
        · exact sparseGet_below hw.2.2 (by omega)
        · rfl

end Sys2Proof.Machine
end

