-- ==== Sys2Proof/Laws/State.lean ====
section
/-! SUPPORT. For each update of the state, the fields it leaves alone and the values it writes: the simp set of every
later proof. -/

namespace Sys2Proof.Machine

variable (s : State)

@[simp] theorem modCom_pending (b : Fin 53) (f : Common → Common) : (s.modCom b f).pending = s.pending := rfl
@[simp] theorem modCom_regs (b : Fin 53) (f : Common → Common) : (s.modCom b f).regs = s.regs := rfl
@[simp] theorem modCom_ch (b : Fin 53) (f : Common → Common) : (s.modCom b f).ch = s.ch := rfl
@[simp] theorem modCom_sys (b : Fin 53) (f : Common → Common) : (s.modCom b f).sys = s.sys := rfl
@[simp] theorem modCom_clk (b : Fin 53) (f : Common → Common) : (s.modCom b f).clk = s.clk := rfl
@[simp] theorem modCom_pwr (b : Fin 53) (f : Common → Common) : (s.modCom b f).pwr = s.pwr := rfl
@[simp] theorem modCom_irq (b : Fin 53) (f : Common → Common) : (s.modCom b f).irq = s.irq := rfl
@[simp] theorem modCom_fcol (b : Fin 53) (f : Common → Common) : (s.modCom b f).fcol = s.fcol := rfl
@[simp] theorem modCom_link (b : Fin 53) (f : Common → Common) : (s.modCom b f).link = s.link := rfl
@[simp] theorem modCom_mgmt (b : Fin 53) (f : Common → Common) : (s.modCom b f).mgmt = s.mgmt := rfl
@[simp] theorem modCom_fix (b : Fin 53) (f : Common → Common) : (s.modCom b f).fix = s.fix := rfl
@[simp] theorem modCom_io (b : Fin 53) (f : Common → Common) : (s.modCom b f).io = s.io := rfl
@[simp] theorem modCom_banks (b : Fin 53) (f : Common → Common) : (s.modCom b f).banks = s.banks := rfl
@[simp] theorem modCom_memc (b : Fin 53) (f : Common → Common) : (s.modCom b f).memc = s.memc := rfl
@[simp] theorem modCom_units (b : Fin 53) (f : Common → Common) : (s.modCom b f).units = s.units := rfl
@[simp] theorem modCom_bench (b : Fin 53) (f : Common → Common) : (s.modCom b f).bench = s.bench := rfl
@[simp] theorem modCom_leaf (b : Fin 53) (f : Common → Common) : (s.modCom b f).leaf = s.leaf := rfl
@[simp] theorem modCom_rcp (b : Fin 53) (f : Common → Common) : (s.modCom b f).rcp = s.rcp := rfl
@[simp] theorem modCom_log (b : Fin 53) (f : Common → Common) : (s.modCom b f).log = s.log := rfl
@[simp] theorem modCom_cap (b : Fin 53) (f : Common → Common) : (s.modCom b f).cap = s.cap := rfl
@[simp] theorem modCom_sec (b : Fin 53) (f : Common → Common) : (s.modCom b f).sec = s.sec := rfl
@[simp] theorem modCom_hk (b : Fin 53) (f : Common → Common) : (s.modCom b f).hk = s.hk := rfl
@[simp] theorem modCom_nvm (b : Fin 53) (f : Common → Common) : (s.modCom b f).nvm = s.nvm := rfl
@[simp] theorem modCom_sup (b : Fin 53) (f : Common → Common) : (s.modCom b f).sup = s.sup := rfl
@[simp] theorem modCom_digest (b : Fin 53) (f : Common → Common) : (s.modCom b f).digest = s.digest := rfl
@[simp] theorem modCom_frame (b : Fin 53) (f : Common → Common) : (s.modCom b f).frame = s.frame := rfl
@[simp] theorem modCom_free (b : Fin 53) (f : Common → Common) : (s.modCom b f).free = s.free := rfl

@[simp] theorem modCom_same (b : Fin 53) (f : Common → Common) : (s.modCom b f).com[b.val] = f s.com[b.val] := by
  simp [State.modCom]

theorem modCom_other {b c : Fin 53} (f : Common → Common) (h : c ≠ b) : (s.modCom b f).com[c.val] = s.com[c.val] := by
  have : b.val ≠ c.val := fun e => h (Fin.ext e.symm)
  simp [State.modCom, this]

@[simp] theorem modCh_pending (n : Drawer) (f : Ch → Ch) : (s.modCh n f).pending = s.pending := rfl
@[simp] theorem modCh_regs (n : Drawer) (f : Ch → Ch) : (s.modCh n f).regs = s.regs := rfl
@[simp] theorem modCh_com (n : Drawer) (f : Ch → Ch) : (s.modCh n f).com = s.com := rfl
@[simp] theorem modCh_sys (n : Drawer) (f : Ch → Ch) : (s.modCh n f).sys = s.sys := rfl
@[simp] theorem modCh_clk (n : Drawer) (f : Ch → Ch) : (s.modCh n f).clk = s.clk := rfl
@[simp] theorem modCh_pwr (n : Drawer) (f : Ch → Ch) : (s.modCh n f).pwr = s.pwr := rfl
@[simp] theorem modCh_irq (n : Drawer) (f : Ch → Ch) : (s.modCh n f).irq = s.irq := rfl
@[simp] theorem modCh_fcol (n : Drawer) (f : Ch → Ch) : (s.modCh n f).fcol = s.fcol := rfl
@[simp] theorem modCh_link (n : Drawer) (f : Ch → Ch) : (s.modCh n f).link = s.link := rfl
@[simp] theorem modCh_mgmt (n : Drawer) (f : Ch → Ch) : (s.modCh n f).mgmt = s.mgmt := rfl
@[simp] theorem modCh_fix (n : Drawer) (f : Ch → Ch) : (s.modCh n f).fix = s.fix := rfl
@[simp] theorem modCh_io (n : Drawer) (f : Ch → Ch) : (s.modCh n f).io = s.io := rfl
@[simp] theorem modCh_banks (n : Drawer) (f : Ch → Ch) : (s.modCh n f).banks = s.banks := rfl
@[simp] theorem modCh_memc (n : Drawer) (f : Ch → Ch) : (s.modCh n f).memc = s.memc := rfl
@[simp] theorem modCh_units (n : Drawer) (f : Ch → Ch) : (s.modCh n f).units = s.units := rfl
@[simp] theorem modCh_bench (n : Drawer) (f : Ch → Ch) : (s.modCh n f).bench = s.bench := rfl
@[simp] theorem modCh_leaf (n : Drawer) (f : Ch → Ch) : (s.modCh n f).leaf = s.leaf := rfl
@[simp] theorem modCh_rcp (n : Drawer) (f : Ch → Ch) : (s.modCh n f).rcp = s.rcp := rfl
@[simp] theorem modCh_log (n : Drawer) (f : Ch → Ch) : (s.modCh n f).log = s.log := rfl
@[simp] theorem modCh_cap (n : Drawer) (f : Ch → Ch) : (s.modCh n f).cap = s.cap := rfl
@[simp] theorem modCh_sec (n : Drawer) (f : Ch → Ch) : (s.modCh n f).sec = s.sec := rfl
@[simp] theorem modCh_hk (n : Drawer) (f : Ch → Ch) : (s.modCh n f).hk = s.hk := rfl
@[simp] theorem modCh_nvm (n : Drawer) (f : Ch → Ch) : (s.modCh n f).nvm = s.nvm := rfl
@[simp] theorem modCh_sup (n : Drawer) (f : Ch → Ch) : (s.modCh n f).sup = s.sup := rfl
@[simp] theorem modCh_digest (n : Drawer) (f : Ch → Ch) : (s.modCh n f).digest = s.digest := rfl
@[simp] theorem modCh_frame (n : Drawer) (f : Ch → Ch) : (s.modCh n f).frame = s.frame := rfl
@[simp] theorem modCh_free (n : Drawer) (f : Ch → Ch) : (s.modCh n f).free = s.free := rfl

@[simp] theorem modCh_same (n : Drawer) (f : Ch → Ch) : (s.modCh n f).ch[n.val] = f s.ch[n.val] := by
  simp [State.modCh]

theorem modCh_other {n k : Drawer} (f : Ch → Ch) (h : k ≠ n) : (s.modCh n f).ch[k.val] = s.ch[k.val] := by
  have : n.val ≠ k.val := fun e => h (Fin.ext e.symm)
  simp [State.modCh, this]

@[simp] theorem setReg_pending (p o : Nat) (v : Word) : (s.setReg p o v).pending = s.pending := rfl
@[simp] theorem setReg_com (p o : Nat) (v : Word) : (s.setReg p o v).com = s.com := rfl
@[simp] theorem setReg_ch (p o : Nat) (v : Word) : (s.setReg p o v).ch = s.ch := rfl
@[simp] theorem setReg_sys (p o : Nat) (v : Word) : (s.setReg p o v).sys = s.sys := rfl
@[simp] theorem setReg_clk (p o : Nat) (v : Word) : (s.setReg p o v).clk = s.clk := rfl
@[simp] theorem setReg_pwr (p o : Nat) (v : Word) : (s.setReg p o v).pwr = s.pwr := rfl
@[simp] theorem setReg_irq (p o : Nat) (v : Word) : (s.setReg p o v).irq = s.irq := rfl
@[simp] theorem setReg_fcol (p o : Nat) (v : Word) : (s.setReg p o v).fcol = s.fcol := rfl
@[simp] theorem setReg_link (p o : Nat) (v : Word) : (s.setReg p o v).link = s.link := rfl
@[simp] theorem setReg_mgmt (p o : Nat) (v : Word) : (s.setReg p o v).mgmt = s.mgmt := rfl
@[simp] theorem setReg_fix (p o : Nat) (v : Word) : (s.setReg p o v).fix = s.fix := rfl
@[simp] theorem setReg_io (p o : Nat) (v : Word) : (s.setReg p o v).io = s.io := rfl
@[simp] theorem setReg_banks (p o : Nat) (v : Word) : (s.setReg p o v).banks = s.banks := rfl
@[simp] theorem setReg_memc (p o : Nat) (v : Word) : (s.setReg p o v).memc = s.memc := rfl
@[simp] theorem setReg_units (p o : Nat) (v : Word) : (s.setReg p o v).units = s.units := rfl
@[simp] theorem setReg_bench (p o : Nat) (v : Word) : (s.setReg p o v).bench = s.bench := rfl
@[simp] theorem setReg_leaf (p o : Nat) (v : Word) : (s.setReg p o v).leaf = s.leaf := rfl
@[simp] theorem setReg_rcp (p o : Nat) (v : Word) : (s.setReg p o v).rcp = s.rcp := rfl
@[simp] theorem setReg_log (p o : Nat) (v : Word) : (s.setReg p o v).log = s.log := rfl
@[simp] theorem setReg_cap (p o : Nat) (v : Word) : (s.setReg p o v).cap = s.cap := rfl
@[simp] theorem setReg_sec (p o : Nat) (v : Word) : (s.setReg p o v).sec = s.sec := rfl
@[simp] theorem setReg_hk (p o : Nat) (v : Word) : (s.setReg p o v).hk = s.hk := rfl
@[simp] theorem setReg_nvm (p o : Nat) (v : Word) : (s.setReg p o v).nvm = s.nvm := rfl
@[simp] theorem setReg_sup (p o : Nat) (v : Word) : (s.setReg p o v).sup = s.sup := rfl
@[simp] theorem setReg_digest (p o : Nat) (v : Word) : (s.setReg p o v).digest = s.digest := rfl
@[simp] theorem setReg_frame (p o : Nat) (v : Word) : (s.setReg p o v).frame = s.frame := rfl
@[simp] theorem setReg_free (p o : Nat) (v : Word) : (s.setReg p o v).free = s.free := rfl

@[simp] theorem resetPage_pending (p : Nat) : (s.resetPage p).pending = s.pending := rfl
@[simp] theorem resetPage_com (p : Nat) : (s.resetPage p).com = s.com := rfl
@[simp] theorem resetPage_ch (p : Nat) : (s.resetPage p).ch = s.ch := rfl
@[simp] theorem resetPage_sys (p : Nat) : (s.resetPage p).sys = s.sys := rfl
@[simp] theorem resetPage_clk (p : Nat) : (s.resetPage p).clk = s.clk := rfl
@[simp] theorem resetPage_pwr (p : Nat) : (s.resetPage p).pwr = s.pwr := rfl
@[simp] theorem resetPage_irq (p : Nat) : (s.resetPage p).irq = s.irq := rfl
@[simp] theorem resetPage_fcol (p : Nat) : (s.resetPage p).fcol = s.fcol := rfl
@[simp] theorem resetPage_link (p : Nat) : (s.resetPage p).link = s.link := rfl
@[simp] theorem resetPage_mgmt (p : Nat) : (s.resetPage p).mgmt = s.mgmt := rfl
@[simp] theorem resetPage_fix (p : Nat) : (s.resetPage p).fix = s.fix := rfl
@[simp] theorem resetPage_io (p : Nat) : (s.resetPage p).io = s.io := rfl
@[simp] theorem resetPage_banks (p : Nat) : (s.resetPage p).banks = s.banks := rfl
@[simp] theorem resetPage_memc (p : Nat) : (s.resetPage p).memc = s.memc := rfl
@[simp] theorem resetPage_units (p : Nat) : (s.resetPage p).units = s.units := rfl
@[simp] theorem resetPage_bench (p : Nat) : (s.resetPage p).bench = s.bench := rfl
@[simp] theorem resetPage_leaf (p : Nat) : (s.resetPage p).leaf = s.leaf := rfl
@[simp] theorem resetPage_rcp (p : Nat) : (s.resetPage p).rcp = s.rcp := rfl
@[simp] theorem resetPage_log (p : Nat) : (s.resetPage p).log = s.log := rfl
@[simp] theorem resetPage_cap (p : Nat) : (s.resetPage p).cap = s.cap := rfl
@[simp] theorem resetPage_sec (p : Nat) : (s.resetPage p).sec = s.sec := rfl
@[simp] theorem resetPage_hk (p : Nat) : (s.resetPage p).hk = s.hk := rfl
@[simp] theorem resetPage_nvm (p : Nat) : (s.resetPage p).nvm = s.nvm := rfl
@[simp] theorem resetPage_sup (p : Nat) : (s.resetPage p).sup = s.sup := rfl
@[simp] theorem resetPage_digest (p : Nat) : (s.resetPage p).digest = s.digest := rfl
@[simp] theorem resetPage_frame (p : Nat) : (s.resetPage p).frame = s.frame := rfl
@[simp] theorem resetPage_free (p : Nat) : (s.resetPage p).free = s.free := rfl

@[simp] theorem touchBank_pending (b : Bank) (a e : Nat) : (touchBank b a e s).pending = s.pending := rfl
@[simp] theorem touchBank_regs (b : Bank) (a e : Nat) : (touchBank b a e s).regs = s.regs := rfl
@[simp] theorem touchBank_com (b : Bank) (a e : Nat) : (touchBank b a e s).com = s.com := rfl
@[simp] theorem touchBank_ch (b : Bank) (a e : Nat) : (touchBank b a e s).ch = s.ch := rfl
@[simp] theorem touchBank_sys (b : Bank) (a e : Nat) : (touchBank b a e s).sys = s.sys := rfl
@[simp] theorem touchBank_clk (b : Bank) (a e : Nat) : (touchBank b a e s).clk = s.clk := rfl
@[simp] theorem touchBank_pwr (b : Bank) (a e : Nat) : (touchBank b a e s).pwr = s.pwr := rfl
@[simp] theorem touchBank_irq (b : Bank) (a e : Nat) : (touchBank b a e s).irq = s.irq := rfl
@[simp] theorem touchBank_fcol (b : Bank) (a e : Nat) : (touchBank b a e s).fcol = s.fcol := rfl
@[simp] theorem touchBank_link (b : Bank) (a e : Nat) : (touchBank b a e s).link = s.link := rfl
@[simp] theorem touchBank_mgmt (b : Bank) (a e : Nat) : (touchBank b a e s).mgmt = s.mgmt := rfl
@[simp] theorem touchBank_fix (b : Bank) (a e : Nat) : (touchBank b a e s).fix = s.fix := rfl
@[simp] theorem touchBank_io (b : Bank) (a e : Nat) : (touchBank b a e s).io = s.io := rfl
@[simp] theorem touchBank_banks (b : Bank) (a e : Nat) : (touchBank b a e s).banks = s.banks := rfl
@[simp] theorem touchBank_memc (b : Bank) (a e : Nat) : (touchBank b a e s).memc = s.memc := rfl
@[simp] theorem touchBank_bench (b : Bank) (a e : Nat) : (touchBank b a e s).bench = s.bench := rfl
@[simp] theorem touchBank_leaf (b : Bank) (a e : Nat) : (touchBank b a e s).leaf = s.leaf := rfl
@[simp] theorem touchBank_rcp (b : Bank) (a e : Nat) : (touchBank b a e s).rcp = s.rcp := rfl
@[simp] theorem touchBank_log (b : Bank) (a e : Nat) : (touchBank b a e s).log = s.log := rfl
@[simp] theorem touchBank_cap (b : Bank) (a e : Nat) : (touchBank b a e s).cap = s.cap := rfl
@[simp] theorem touchBank_sec (b : Bank) (a e : Nat) : (touchBank b a e s).sec = s.sec := rfl
@[simp] theorem touchBank_hk (b : Bank) (a e : Nat) : (touchBank b a e s).hk = s.hk := rfl
@[simp] theorem touchBank_nvm (b : Bank) (a e : Nat) : (touchBank b a e s).nvm = s.nvm := rfl
@[simp] theorem touchBank_sup (b : Bank) (a e : Nat) : (touchBank b a e s).sup = s.sup := rfl
@[simp] theorem touchBank_digest (b : Bank) (a e : Nat) : (touchBank b a e s).digest = s.digest := rfl
@[simp] theorem touchBank_frame (b : Bank) (a e : Nat) : (touchBank b a e s).frame = s.frame := rfl
@[simp] theorem touchBank_free (b : Bank) (a e : Nat) : (touchBank b a e s).free = s.free := rfl

@[simp] theorem touchReg_pending (p o : Nat) : (touchReg p o s).pending = s.pending := rfl
@[simp] theorem touchReg_regs (p o : Nat) : (touchReg p o s).regs = s.regs := rfl
@[simp] theorem touchReg_com (p o : Nat) : (touchReg p o s).com = s.com := rfl
@[simp] theorem touchReg_ch (p o : Nat) : (touchReg p o s).ch = s.ch := rfl
@[simp] theorem touchReg_sys (p o : Nat) : (touchReg p o s).sys = s.sys := rfl
@[simp] theorem touchReg_clk (p o : Nat) : (touchReg p o s).clk = s.clk := rfl
@[simp] theorem touchReg_pwr (p o : Nat) : (touchReg p o s).pwr = s.pwr := rfl
@[simp] theorem touchReg_irq (p o : Nat) : (touchReg p o s).irq = s.irq := rfl
@[simp] theorem touchReg_fcol (p o : Nat) : (touchReg p o s).fcol = s.fcol := rfl
@[simp] theorem touchReg_link (p o : Nat) : (touchReg p o s).link = s.link := rfl
@[simp] theorem touchReg_mgmt (p o : Nat) : (touchReg p o s).mgmt = s.mgmt := rfl
@[simp] theorem touchReg_fix (p o : Nat) : (touchReg p o s).fix = s.fix := rfl
@[simp] theorem touchReg_io (p o : Nat) : (touchReg p o s).io = s.io := rfl
@[simp] theorem touchReg_banks (p o : Nat) : (touchReg p o s).banks = s.banks := rfl
@[simp] theorem touchReg_memc (p o : Nat) : (touchReg p o s).memc = s.memc := rfl
@[simp] theorem touchReg_bench (p o : Nat) : (touchReg p o s).bench = s.bench := rfl
@[simp] theorem touchReg_leaf (p o : Nat) : (touchReg p o s).leaf = s.leaf := rfl
@[simp] theorem touchReg_rcp (p o : Nat) : (touchReg p o s).rcp = s.rcp := rfl
@[simp] theorem touchReg_log (p o : Nat) : (touchReg p o s).log = s.log := rfl
@[simp] theorem touchReg_cap (p o : Nat) : (touchReg p o s).cap = s.cap := rfl
@[simp] theorem touchReg_sec (p o : Nat) : (touchReg p o s).sec = s.sec := rfl
@[simp] theorem touchReg_hk (p o : Nat) : (touchReg p o s).hk = s.hk := rfl
@[simp] theorem touchReg_nvm (p o : Nat) : (touchReg p o s).nvm = s.nvm := rfl
@[simp] theorem touchReg_sup (p o : Nat) : (touchReg p o s).sup = s.sup := rfl
@[simp] theorem touchReg_digest (p o : Nat) : (touchReg p o s).digest = s.digest := rfl
@[simp] theorem touchReg_frame (p o : Nat) : (touchReg p o s).frame = s.frame := rfl
@[simp] theorem touchReg_free (p o : Nat) : (touchReg p o s).free = s.free := rfl

@[simp] theorem putBytes_pending (b : Bank) (a : Nat) (vs : List Byte) : (s.putBytes b a vs).pending = s.pending := rfl
@[simp] theorem putBytes_regs (b : Bank) (a : Nat) (vs : List Byte) : (s.putBytes b a vs).regs = s.regs := rfl
@[simp] theorem putBytes_com (b : Bank) (a : Nat) (vs : List Byte) : (s.putBytes b a vs).com = s.com := rfl
@[simp] theorem putBytes_ch (b : Bank) (a : Nat) (vs : List Byte) : (s.putBytes b a vs).ch = s.ch := rfl
@[simp] theorem putBytes_sys (b : Bank) (a : Nat) (vs : List Byte) : (s.putBytes b a vs).sys = s.sys := rfl
@[simp] theorem putBytes_clk (b : Bank) (a : Nat) (vs : List Byte) : (s.putBytes b a vs).clk = s.clk := rfl
@[simp] theorem putBytes_pwr (b : Bank) (a : Nat) (vs : List Byte) : (s.putBytes b a vs).pwr = s.pwr := rfl
@[simp] theorem putBytes_irq (b : Bank) (a : Nat) (vs : List Byte) : (s.putBytes b a vs).irq = s.irq := rfl
@[simp] theorem putBytes_fcol (b : Bank) (a : Nat) (vs : List Byte) : (s.putBytes b a vs).fcol = s.fcol := rfl
@[simp] theorem putBytes_link (b : Bank) (a : Nat) (vs : List Byte) : (s.putBytes b a vs).link = s.link := rfl
@[simp] theorem putBytes_mgmt (b : Bank) (a : Nat) (vs : List Byte) : (s.putBytes b a vs).mgmt = s.mgmt := rfl
@[simp] theorem putBytes_fix (b : Bank) (a : Nat) (vs : List Byte) : (s.putBytes b a vs).fix = s.fix := rfl
@[simp] theorem putBytes_io (b : Bank) (a : Nat) (vs : List Byte) : (s.putBytes b a vs).io = s.io := rfl
@[simp] theorem putBytes_memc (b : Bank) (a : Nat) (vs : List Byte) : (s.putBytes b a vs).memc = s.memc := rfl
@[simp] theorem putBytes_bench (b : Bank) (a : Nat) (vs : List Byte) : (s.putBytes b a vs).bench = s.bench := rfl
@[simp] theorem putBytes_leaf (b : Bank) (a : Nat) (vs : List Byte) : (s.putBytes b a vs).leaf = s.leaf := rfl
@[simp] theorem putBytes_rcp (b : Bank) (a : Nat) (vs : List Byte) : (s.putBytes b a vs).rcp = s.rcp := rfl
@[simp] theorem putBytes_log (b : Bank) (a : Nat) (vs : List Byte) : (s.putBytes b a vs).log = s.log := rfl
@[simp] theorem putBytes_cap (b : Bank) (a : Nat) (vs : List Byte) : (s.putBytes b a vs).cap = s.cap := rfl
@[simp] theorem putBytes_sec (b : Bank) (a : Nat) (vs : List Byte) : (s.putBytes b a vs).sec = s.sec := rfl
@[simp] theorem putBytes_hk (b : Bank) (a : Nat) (vs : List Byte) : (s.putBytes b a vs).hk = s.hk := rfl
@[simp] theorem putBytes_nvm (b : Bank) (a : Nat) (vs : List Byte) : (s.putBytes b a vs).nvm = s.nvm := rfl
@[simp] theorem putBytes_sup (b : Bank) (a : Nat) (vs : List Byte) : (s.putBytes b a vs).sup = s.sup := rfl
@[simp] theorem putBytes_digest (b : Bank) (a : Nat) (vs : List Byte) : (s.putBytes b a vs).digest = s.digest := rfl
@[simp] theorem putBytes_frame (b : Bank) (a : Nat) (vs : List Byte) : (s.putBytes b a vs).frame = s.frame := rfl
@[simp] theorem putBytes_free (b : Bank) (a : Nat) (vs : List Byte) : (s.putBytes b a vs).free = s.free := rfl

@[simp] theorem blankRange_pending (b : Bank) (a e : Nat) : (s.blankRange b a e).pending = s.pending := rfl
@[simp] theorem blankRange_regs (b : Bank) (a e : Nat) : (s.blankRange b a e).regs = s.regs := rfl
@[simp] theorem blankRange_com (b : Bank) (a e : Nat) : (s.blankRange b a e).com = s.com := rfl
@[simp] theorem blankRange_ch (b : Bank) (a e : Nat) : (s.blankRange b a e).ch = s.ch := rfl
@[simp] theorem blankRange_sys (b : Bank) (a e : Nat) : (s.blankRange b a e).sys = s.sys := rfl
@[simp] theorem blankRange_clk (b : Bank) (a e : Nat) : (s.blankRange b a e).clk = s.clk := rfl
@[simp] theorem blankRange_pwr (b : Bank) (a e : Nat) : (s.blankRange b a e).pwr = s.pwr := rfl
@[simp] theorem blankRange_irq (b : Bank) (a e : Nat) : (s.blankRange b a e).irq = s.irq := rfl
@[simp] theorem blankRange_fcol (b : Bank) (a e : Nat) : (s.blankRange b a e).fcol = s.fcol := rfl
@[simp] theorem blankRange_link (b : Bank) (a e : Nat) : (s.blankRange b a e).link = s.link := rfl
@[simp] theorem blankRange_mgmt (b : Bank) (a e : Nat) : (s.blankRange b a e).mgmt = s.mgmt := rfl
@[simp] theorem blankRange_fix (b : Bank) (a e : Nat) : (s.blankRange b a e).fix = s.fix := rfl
@[simp] theorem blankRange_io (b : Bank) (a e : Nat) : (s.blankRange b a e).io = s.io := rfl
@[simp] theorem blankRange_memc (b : Bank) (a e : Nat) : (s.blankRange b a e).memc = s.memc := rfl
@[simp] theorem blankRange_bench (b : Bank) (a e : Nat) : (s.blankRange b a e).bench = s.bench := rfl
@[simp] theorem blankRange_leaf (b : Bank) (a e : Nat) : (s.blankRange b a e).leaf = s.leaf := rfl
@[simp] theorem blankRange_rcp (b : Bank) (a e : Nat) : (s.blankRange b a e).rcp = s.rcp := rfl
@[simp] theorem blankRange_log (b : Bank) (a e : Nat) : (s.blankRange b a e).log = s.log := rfl
@[simp] theorem blankRange_cap (b : Bank) (a e : Nat) : (s.blankRange b a e).cap = s.cap := rfl
@[simp] theorem blankRange_sec (b : Bank) (a e : Nat) : (s.blankRange b a e).sec = s.sec := rfl
@[simp] theorem blankRange_hk (b : Bank) (a e : Nat) : (s.blankRange b a e).hk = s.hk := rfl
@[simp] theorem blankRange_nvm (b : Bank) (a e : Nat) : (s.blankRange b a e).nvm = s.nvm := rfl
@[simp] theorem blankRange_sup (b : Bank) (a e : Nat) : (s.blankRange b a e).sup = s.sup := rfl
@[simp] theorem blankRange_digest (b : Bank) (a e : Nat) : (s.blankRange b a e).digest = s.digest := rfl
@[simp] theorem blankRange_frame (b : Bank) (a e : Nat) : (s.blankRange b a e).frame = s.frame := rfl
@[simp] theorem blankRange_free (b : Bank) (a e : Nat) : (s.blankRange b a e).free = s.free := rfl

@[simp] theorem modPin_pending (k : Fin 8) (f : Pin → Pin) : (s.modPin k f).pending = s.pending := rfl
@[simp] theorem modPin_regs (k : Fin 8) (f : Pin → Pin) : (s.modPin k f).regs = s.regs := rfl
@[simp] theorem modPin_com (k : Fin 8) (f : Pin → Pin) : (s.modPin k f).com = s.com := rfl
@[simp] theorem modPin_ch (k : Fin 8) (f : Pin → Pin) : (s.modPin k f).ch = s.ch := rfl
@[simp] theorem modPin_sys (k : Fin 8) (f : Pin → Pin) : (s.modPin k f).sys = s.sys := rfl
@[simp] theorem modPin_clk (k : Fin 8) (f : Pin → Pin) : (s.modPin k f).clk = s.clk := rfl
@[simp] theorem modPin_pwr (k : Fin 8) (f : Pin → Pin) : (s.modPin k f).pwr = s.pwr := rfl
@[simp] theorem modPin_irq (k : Fin 8) (f : Pin → Pin) : (s.modPin k f).irq = s.irq := rfl
@[simp] theorem modPin_fcol (k : Fin 8) (f : Pin → Pin) : (s.modPin k f).fcol = s.fcol := rfl
@[simp] theorem modPin_link (k : Fin 8) (f : Pin → Pin) : (s.modPin k f).link = s.link := rfl
@[simp] theorem modPin_mgmt (k : Fin 8) (f : Pin → Pin) : (s.modPin k f).mgmt = s.mgmt := rfl
@[simp] theorem modPin_fix (k : Fin 8) (f : Pin → Pin) : (s.modPin k f).fix = s.fix := rfl
@[simp] theorem modPin_banks (k : Fin 8) (f : Pin → Pin) : (s.modPin k f).banks = s.banks := rfl
@[simp] theorem modPin_memc (k : Fin 8) (f : Pin → Pin) : (s.modPin k f).memc = s.memc := rfl
@[simp] theorem modPin_units (k : Fin 8) (f : Pin → Pin) : (s.modPin k f).units = s.units := rfl
@[simp] theorem modPin_bench (k : Fin 8) (f : Pin → Pin) : (s.modPin k f).bench = s.bench := rfl
@[simp] theorem modPin_leaf (k : Fin 8) (f : Pin → Pin) : (s.modPin k f).leaf = s.leaf := rfl
@[simp] theorem modPin_rcp (k : Fin 8) (f : Pin → Pin) : (s.modPin k f).rcp = s.rcp := rfl
@[simp] theorem modPin_log (k : Fin 8) (f : Pin → Pin) : (s.modPin k f).log = s.log := rfl
@[simp] theorem modPin_cap (k : Fin 8) (f : Pin → Pin) : (s.modPin k f).cap = s.cap := rfl
@[simp] theorem modPin_sec (k : Fin 8) (f : Pin → Pin) : (s.modPin k f).sec = s.sec := rfl
@[simp] theorem modPin_hk (k : Fin 8) (f : Pin → Pin) : (s.modPin k f).hk = s.hk := rfl
@[simp] theorem modPin_nvm (k : Fin 8) (f : Pin → Pin) : (s.modPin k f).nvm = s.nvm := rfl
@[simp] theorem modPin_sup (k : Fin 8) (f : Pin → Pin) : (s.modPin k f).sup = s.sup := rfl
@[simp] theorem modPin_digest (k : Fin 8) (f : Pin → Pin) : (s.modPin k f).digest = s.digest := rfl
@[simp] theorem modPin_frame (k : Fin 8) (f : Pin → Pin) : (s.modPin k f).frame = s.frame := rfl
@[simp] theorem modPin_free (k : Fin 8) (f : Pin → Pin) : (s.modPin k f).free = s.free := rfl

@[simp] theorem modUnit_pending (u : Fin 2) (f : CheckUnit → CheckUnit) : (s.modUnit u f).pending = s.pending := rfl
@[simp] theorem modUnit_regs (u : Fin 2) (f : CheckUnit → CheckUnit) : (s.modUnit u f).regs = s.regs := rfl
@[simp] theorem modUnit_com (u : Fin 2) (f : CheckUnit → CheckUnit) : (s.modUnit u f).com = s.com := rfl
@[simp] theorem modUnit_ch (u : Fin 2) (f : CheckUnit → CheckUnit) : (s.modUnit u f).ch = s.ch := rfl
@[simp] theorem modUnit_sys (u : Fin 2) (f : CheckUnit → CheckUnit) : (s.modUnit u f).sys = s.sys := rfl
@[simp] theorem modUnit_clk (u : Fin 2) (f : CheckUnit → CheckUnit) : (s.modUnit u f).clk = s.clk := rfl
@[simp] theorem modUnit_pwr (u : Fin 2) (f : CheckUnit → CheckUnit) : (s.modUnit u f).pwr = s.pwr := rfl
@[simp] theorem modUnit_irq (u : Fin 2) (f : CheckUnit → CheckUnit) : (s.modUnit u f).irq = s.irq := rfl
@[simp] theorem modUnit_fcol (u : Fin 2) (f : CheckUnit → CheckUnit) : (s.modUnit u f).fcol = s.fcol := rfl
@[simp] theorem modUnit_link (u : Fin 2) (f : CheckUnit → CheckUnit) : (s.modUnit u f).link = s.link := rfl
@[simp] theorem modUnit_mgmt (u : Fin 2) (f : CheckUnit → CheckUnit) : (s.modUnit u f).mgmt = s.mgmt := rfl
@[simp] theorem modUnit_fix (u : Fin 2) (f : CheckUnit → CheckUnit) : (s.modUnit u f).fix = s.fix := rfl
@[simp] theorem modUnit_io (u : Fin 2) (f : CheckUnit → CheckUnit) : (s.modUnit u f).io = s.io := rfl
@[simp] theorem modUnit_banks (u : Fin 2) (f : CheckUnit → CheckUnit) : (s.modUnit u f).banks = s.banks := rfl
@[simp] theorem modUnit_memc (u : Fin 2) (f : CheckUnit → CheckUnit) : (s.modUnit u f).memc = s.memc := rfl
@[simp] theorem modUnit_bench (u : Fin 2) (f : CheckUnit → CheckUnit) : (s.modUnit u f).bench = s.bench := rfl
@[simp] theorem modUnit_leaf (u : Fin 2) (f : CheckUnit → CheckUnit) : (s.modUnit u f).leaf = s.leaf := rfl
@[simp] theorem modUnit_rcp (u : Fin 2) (f : CheckUnit → CheckUnit) : (s.modUnit u f).rcp = s.rcp := rfl
@[simp] theorem modUnit_log (u : Fin 2) (f : CheckUnit → CheckUnit) : (s.modUnit u f).log = s.log := rfl
@[simp] theorem modUnit_cap (u : Fin 2) (f : CheckUnit → CheckUnit) : (s.modUnit u f).cap = s.cap := rfl
@[simp] theorem modUnit_sec (u : Fin 2) (f : CheckUnit → CheckUnit) : (s.modUnit u f).sec = s.sec := rfl
@[simp] theorem modUnit_hk (u : Fin 2) (f : CheckUnit → CheckUnit) : (s.modUnit u f).hk = s.hk := rfl
@[simp] theorem modUnit_nvm (u : Fin 2) (f : CheckUnit → CheckUnit) : (s.modUnit u f).nvm = s.nvm := rfl
@[simp] theorem modUnit_sup (u : Fin 2) (f : CheckUnit → CheckUnit) : (s.modUnit u f).sup = s.sup := rfl
@[simp] theorem modUnit_digest (u : Fin 2) (f : CheckUnit → CheckUnit) : (s.modUnit u f).digest = s.digest := rfl
@[simp] theorem modUnit_frame (u : Fin 2) (f : CheckUnit → CheckUnit) : (s.modUnit u f).frame = s.frame := rfl
@[simp] theorem modUnit_free (u : Fin 2) (f : CheckUnit → CheckUnit) : (s.modUnit u f).free = s.free := rfl

@[simp] theorem closeAllLocks_pending  : (closeAllLocks s).pending = s.pending := rfl
@[simp] theorem closeAllLocks_regs  : (closeAllLocks s).regs = s.regs := rfl
@[simp] theorem closeAllLocks_ch  : (closeAllLocks s).ch = s.ch := rfl
@[simp] theorem closeAllLocks_sys  : (closeAllLocks s).sys = s.sys := rfl
@[simp] theorem closeAllLocks_clk  : (closeAllLocks s).clk = s.clk := rfl
@[simp] theorem closeAllLocks_pwr  : (closeAllLocks s).pwr = s.pwr := rfl
@[simp] theorem closeAllLocks_irq  : (closeAllLocks s).irq = s.irq := rfl
@[simp] theorem closeAllLocks_fcol  : (closeAllLocks s).fcol = s.fcol := rfl
@[simp] theorem closeAllLocks_link  : (closeAllLocks s).link = s.link := rfl
@[simp] theorem closeAllLocks_mgmt  : (closeAllLocks s).mgmt = s.mgmt := rfl
@[simp] theorem closeAllLocks_fix  : (closeAllLocks s).fix = s.fix := rfl
@[simp] theorem closeAllLocks_io  : (closeAllLocks s).io = s.io := rfl
@[simp] theorem closeAllLocks_banks  : (closeAllLocks s).banks = s.banks := rfl
@[simp] theorem closeAllLocks_memc  : (closeAllLocks s).memc = s.memc := rfl
@[simp] theorem closeAllLocks_units  : (closeAllLocks s).units = s.units := rfl
@[simp] theorem closeAllLocks_bench  : (closeAllLocks s).bench = s.bench := rfl
@[simp] theorem closeAllLocks_leaf  : (closeAllLocks s).leaf = s.leaf := rfl
@[simp] theorem closeAllLocks_rcp  : (closeAllLocks s).rcp = s.rcp := rfl
@[simp] theorem closeAllLocks_log  : (closeAllLocks s).log = s.log := rfl
@[simp] theorem closeAllLocks_cap  : (closeAllLocks s).cap = s.cap := rfl
@[simp] theorem closeAllLocks_sec  : (closeAllLocks s).sec = s.sec := rfl
@[simp] theorem closeAllLocks_hk  : (closeAllLocks s).hk = s.hk := rfl
@[simp] theorem closeAllLocks_nvm  : (closeAllLocks s).nvm = s.nvm := rfl
@[simp] theorem closeAllLocks_sup  : (closeAllLocks s).sup = s.sup := rfl
@[simp] theorem closeAllLocks_digest  : (closeAllLocks s).digest = s.digest := rfl
@[simp] theorem closeAllLocks_frame  : (closeAllLocks s).frame = s.frame := rfl
@[simp] theorem closeAllLocks_free  : (closeAllLocks s).free = s.free := rfl

@[simp] theorem modCell_keeps (n : Chan) (f : Ch → Ch) :
    (s.modCell n f).pending = s.pending ∧ (s.modCell n f).regs = s.regs ∧ (s.modCell n f).com = s.com ∧
    (s.modCell n f).sys = s.sys ∧ (s.modCell n f).clk = s.clk ∧ (s.modCell n f).pwr = s.pwr ∧
    (s.modCell n f).irq = s.irq ∧ (s.modCell n f).fcol = s.fcol ∧ (s.modCell n f).link = s.link ∧
    (s.modCell n f).mgmt = s.mgmt ∧ (s.modCell n f).fix = s.fix ∧ (s.modCell n f).io = s.io ∧
    (s.modCell n f).banks = s.banks ∧ (s.modCell n f).memc = s.memc ∧ (s.modCell n f).units = s.units ∧
    (s.modCell n f).bench = s.bench ∧ (s.modCell n f).leaf = s.leaf ∧ (s.modCell n f).rcp = s.rcp ∧
    (s.modCell n f).log = s.log ∧ (s.modCell n f).cap = s.cap ∧ (s.modCell n f).sec = s.sec ∧
    (s.modCell n f).hk = s.hk ∧ (s.modCell n f).nvm = s.nvm ∧ (s.modCell n f).sup = s.sup ∧
    (s.modCell n f).digest = s.digest ∧ (s.modCell n f).frame = s.frame ∧ (s.modCell n f).free = s.free := by
  simp [State.modCell]

@[simp] theorem modSeq_keeps (n : Chan) (f : Seq → Seq) :
    (s.modSeq n f).pending = s.pending ∧ (s.modSeq n f).regs = s.regs ∧ (s.modSeq n f).com = s.com ∧
    (s.modSeq n f).sys = s.sys ∧ (s.modSeq n f).clk = s.clk ∧ (s.modSeq n f).pwr = s.pwr ∧
    (s.modSeq n f).irq = s.irq ∧ (s.modSeq n f).fcol = s.fcol ∧ (s.modSeq n f).link = s.link ∧
    (s.modSeq n f).mgmt = s.mgmt ∧ (s.modSeq n f).fix = s.fix ∧ (s.modSeq n f).io = s.io ∧
    (s.modSeq n f).banks = s.banks ∧ (s.modSeq n f).memc = s.memc ∧ (s.modSeq n f).units = s.units ∧
    (s.modSeq n f).bench = s.bench ∧ (s.modSeq n f).leaf = s.leaf ∧ (s.modSeq n f).rcp = s.rcp ∧
    (s.modSeq n f).log = s.log ∧ (s.modSeq n f).cap = s.cap ∧ (s.modSeq n f).sec = s.sec ∧ (s.modSeq n f).hk = s.hk ∧
    (s.modSeq n f).nvm = s.nvm ∧ (s.modSeq n f).sup = s.sup ∧ (s.modSeq n f).digest = s.digest ∧
    (s.modSeq n f).frame = s.frame ∧ (s.modSeq n f).free = s.free := by
  simp [State.modSeq]

@[simp] theorem modPs_keeps (n : Chan) (f : Stage → Stage) :
    (s.modPs n f).pending = s.pending ∧ (s.modPs n f).regs = s.regs ∧ (s.modPs n f).com = s.com ∧
    (s.modPs n f).sys = s.sys ∧ (s.modPs n f).clk = s.clk ∧ (s.modPs n f).pwr = s.pwr ∧ (s.modPs n f).irq = s.irq ∧
    (s.modPs n f).fcol = s.fcol ∧ (s.modPs n f).link = s.link ∧ (s.modPs n f).mgmt = s.mgmt ∧
    (s.modPs n f).fix = s.fix ∧ (s.modPs n f).io = s.io ∧ (s.modPs n f).banks = s.banks ∧
    (s.modPs n f).memc = s.memc ∧ (s.modPs n f).units = s.units ∧ (s.modPs n f).bench = s.bench ∧
    (s.modPs n f).leaf = s.leaf ∧ (s.modPs n f).rcp = s.rcp ∧ (s.modPs n f).log = s.log ∧ (s.modPs n f).cap = s.cap ∧
    (s.modPs n f).sec = s.sec ∧ (s.modPs n f).hk = s.hk ∧ (s.modPs n f).nvm = s.nvm ∧ (s.modPs n f).sup = s.sup ∧
    (s.modPs n f).digest = s.digest ∧ (s.modPs n f).frame = s.frame ∧ (s.modPs n f).free = s.free := by
  simp [State.modPs]

@[simp] theorem raise_keeps (b : Fin 53) (bits : Word) :
    (raise b bits s).pending = s.pending ∧ (raise b bits s).regs = s.regs ∧ (raise b bits s).ch = s.ch ∧
    (raise b bits s).sys = s.sys ∧ (raise b bits s).clk = s.clk ∧ (raise b bits s).pwr = s.pwr ∧
    (raise b bits s).irq = s.irq ∧ (raise b bits s).fcol = s.fcol ∧ (raise b bits s).link = s.link ∧
    (raise b bits s).mgmt = s.mgmt ∧ (raise b bits s).fix = s.fix ∧ (raise b bits s).io = s.io ∧
    (raise b bits s).banks = s.banks ∧ (raise b bits s).memc = s.memc ∧ (raise b bits s).units = s.units ∧
    (raise b bits s).bench = s.bench ∧ (raise b bits s).leaf = s.leaf ∧ (raise b bits s).rcp = s.rcp ∧
    (raise b bits s).log = s.log ∧ (raise b bits s).cap = s.cap ∧ (raise b bits s).sec = s.sec ∧
    (raise b bits s).hk = s.hk ∧ (raise b bits s).nvm = s.nvm ∧ (raise b bits s).sup = s.sup ∧
    (raise b bits s).digest = s.digest ∧ (raise b bits s).frame = s.frame ∧ (raise b bits s).free = s.free := by
  simp [raise]

@[simp] theorem raiseBit_keeps (b : Fin 53) (i : Nat) :
    (raiseBit b i s).pending = s.pending ∧ (raiseBit b i s).regs = s.regs ∧ (raiseBit b i s).ch = s.ch ∧
    (raiseBit b i s).sys = s.sys ∧ (raiseBit b i s).clk = s.clk ∧ (raiseBit b i s).pwr = s.pwr ∧
    (raiseBit b i s).irq = s.irq ∧ (raiseBit b i s).fcol = s.fcol ∧ (raiseBit b i s).link = s.link ∧
    (raiseBit b i s).mgmt = s.mgmt ∧ (raiseBit b i s).fix = s.fix ∧ (raiseBit b i s).io = s.io ∧
    (raiseBit b i s).banks = s.banks ∧ (raiseBit b i s).memc = s.memc ∧ (raiseBit b i s).units = s.units ∧
    (raiseBit b i s).bench = s.bench ∧ (raiseBit b i s).leaf = s.leaf ∧ (raiseBit b i s).rcp = s.rcp ∧
    (raiseBit b i s).log = s.log ∧ (raiseBit b i s).cap = s.cap ∧ (raiseBit b i s).sec = s.sec ∧
    (raiseBit b i s).hk = s.hk ∧ (raiseBit b i s).nvm = s.nvm ∧ (raiseBit b i s).sup = s.sup ∧
    (raiseBit b i s).digest = s.digest ∧ (raiseBit b i s).frame = s.frame ∧ (raiseBit b i s).free = s.free := by
  simp [raiseBit]

@[simp] theorem raiseIf_keeps (c : Bool) (b : Fin 53) (i : Nat) :
    (raiseIf c b i s).pending = s.pending ∧ (raiseIf c b i s).regs = s.regs ∧ (raiseIf c b i s).ch = s.ch ∧
    (raiseIf c b i s).sys = s.sys ∧ (raiseIf c b i s).clk = s.clk ∧ (raiseIf c b i s).pwr = s.pwr ∧
    (raiseIf c b i s).irq = s.irq ∧ (raiseIf c b i s).fcol = s.fcol ∧ (raiseIf c b i s).link = s.link ∧
    (raiseIf c b i s).mgmt = s.mgmt ∧ (raiseIf c b i s).fix = s.fix ∧ (raiseIf c b i s).io = s.io ∧
    (raiseIf c b i s).banks = s.banks ∧ (raiseIf c b i s).memc = s.memc ∧ (raiseIf c b i s).units = s.units ∧
    (raiseIf c b i s).bench = s.bench ∧ (raiseIf c b i s).leaf = s.leaf ∧ (raiseIf c b i s).rcp = s.rcp ∧
    (raiseIf c b i s).log = s.log ∧ (raiseIf c b i s).cap = s.cap ∧ (raiseIf c b i s).sec = s.sec ∧
    (raiseIf c b i s).hk = s.hk ∧ (raiseIf c b i s).nvm = s.nvm ∧ (raiseIf c b i s).sup = s.sup ∧
    (raiseIf c b i s).digest = s.digest ∧ (raiseIf c b i s).frame = s.frame ∧ (raiseIf c b i s).free = s.free := by
  unfold raiseIf; split <;> simp

@[simp] theorem capErr_keeps (b : Fin 53) (d : BitVec 23) :
    (capErr b d s).pending = s.pending ∧ (capErr b d s).regs = s.regs ∧ (capErr b d s).ch = s.ch ∧
    (capErr b d s).sys = s.sys ∧ (capErr b d s).clk = s.clk ∧ (capErr b d s).pwr = s.pwr ∧
    (capErr b d s).irq = s.irq ∧ (capErr b d s).fcol = s.fcol ∧ (capErr b d s).link = s.link ∧
    (capErr b d s).mgmt = s.mgmt ∧ (capErr b d s).fix = s.fix ∧ (capErr b d s).io = s.io ∧
    (capErr b d s).banks = s.banks ∧ (capErr b d s).memc = s.memc ∧ (capErr b d s).units = s.units ∧
    (capErr b d s).bench = s.bench ∧ (capErr b d s).leaf = s.leaf ∧ (capErr b d s).rcp = s.rcp ∧
    (capErr b d s).log = s.log ∧ (capErr b d s).cap = s.cap ∧ (capErr b d s).sec = s.sec ∧ (capErr b d s).hk = s.hk ∧
    (capErr b d s).nvm = s.nvm ∧ (capErr b d s).sup = s.sup ∧ (capErr b d s).digest = s.digest ∧
    (capErr b d s).frame = s.frame ∧ (capErr b d s).free = s.free := by
  simp [capErr]

@[simp] theorem closeLock_keeps (b : Fin 53) :
    (closeLock b s).pending = s.pending ∧ (closeLock b s).regs = s.regs ∧ (closeLock b s).ch = s.ch ∧
    (closeLock b s).sys = s.sys ∧ (closeLock b s).clk = s.clk ∧ (closeLock b s).pwr = s.pwr ∧
    (closeLock b s).irq = s.irq ∧ (closeLock b s).fcol = s.fcol ∧ (closeLock b s).link = s.link ∧
    (closeLock b s).mgmt = s.mgmt ∧ (closeLock b s).fix = s.fix ∧ (closeLock b s).io = s.io ∧
    (closeLock b s).banks = s.banks ∧ (closeLock b s).memc = s.memc ∧ (closeLock b s).units = s.units ∧
    (closeLock b s).bench = s.bench ∧ (closeLock b s).leaf = s.leaf ∧ (closeLock b s).rcp = s.rcp ∧
    (closeLock b s).log = s.log ∧ (closeLock b s).cap = s.cap ∧ (closeLock b s).sec = s.sec ∧
    (closeLock b s).hk = s.hk ∧ (closeLock b s).nvm = s.nvm ∧ (closeLock b s).sup = s.sup ∧
    (closeLock b s).digest = s.digest ∧ (closeLock b s).frame = s.frame ∧ (closeLock b s).free = s.free := by
  simp [closeLock]

@[simp] theorem lkDrop_keeps (b : Fin 53) :
    (lkDrop b s).pending = s.pending ∧ (lkDrop b s).regs = s.regs ∧ (lkDrop b s).ch = s.ch ∧
    (lkDrop b s).sys = s.sys ∧ (lkDrop b s).clk = s.clk ∧ (lkDrop b s).pwr = s.pwr ∧ (lkDrop b s).irq = s.irq ∧
    (lkDrop b s).fcol = s.fcol ∧ (lkDrop b s).link = s.link ∧ (lkDrop b s).mgmt = s.mgmt ∧ (lkDrop b s).fix = s.fix ∧
    (lkDrop b s).io = s.io ∧ (lkDrop b s).banks = s.banks ∧ (lkDrop b s).memc = s.memc ∧
    (lkDrop b s).units = s.units ∧ (lkDrop b s).bench = s.bench ∧ (lkDrop b s).leaf = s.leaf ∧
    (lkDrop b s).rcp = s.rcp ∧ (lkDrop b s).log = s.log ∧ (lkDrop b s).cap = s.cap ∧ (lkDrop b s).sec = s.sec ∧
    (lkDrop b s).hk = s.hk ∧ (lkDrop b s).nvm = s.nvm ∧ (lkDrop b s).sup = s.sup ∧ (lkDrop b s).digest = s.digest ∧
    (lkDrop b s).frame = s.frame ∧ (lkDrop b s).free = s.free := by
  simp [lkDrop]

@[simp] theorem irqPulse_keeps (i : Fin 128) :
    (irqPulse i s).pending = s.pending ∧ (irqPulse i s).regs = s.regs ∧ (irqPulse i s).com = s.com ∧
    (irqPulse i s).ch = s.ch ∧ (irqPulse i s).sys = s.sys ∧ (irqPulse i s).clk = s.clk ∧ (irqPulse i s).pwr = s.pwr ∧
    (irqPulse i s).fcol = s.fcol ∧ (irqPulse i s).link = s.link ∧ (irqPulse i s).mgmt = s.mgmt ∧
    (irqPulse i s).fix = s.fix ∧ (irqPulse i s).io = s.io ∧ (irqPulse i s).banks = s.banks ∧
    (irqPulse i s).memc = s.memc ∧ (irqPulse i s).units = s.units ∧ (irqPulse i s).bench = s.bench ∧
    (irqPulse i s).leaf = s.leaf ∧ (irqPulse i s).rcp = s.rcp ∧ (irqPulse i s).log = s.log ∧
    (irqPulse i s).cap = s.cap ∧ (irqPulse i s).sec = s.sec ∧ (irqPulse i s).hk = s.hk ∧ (irqPulse i s).nvm = s.nvm ∧
    (irqPulse i s).sup = s.sup ∧ (irqPulse i s).digest = s.digest ∧ (irqPulse i s).frame = s.frame ∧
    (irqPulse i s).free = s.free := by
  unfold irqPulse; split <;> simp

@[simp] theorem freeBit_snd_keeps  :
    ((freeBit s).2).pending = s.pending ∧ ((freeBit s).2).regs = s.regs ∧ ((freeBit s).2).com = s.com ∧
    ((freeBit s).2).ch = s.ch ∧ ((freeBit s).2).sys = s.sys ∧ ((freeBit s).2).clk = s.clk ∧
    ((freeBit s).2).pwr = s.pwr ∧ ((freeBit s).2).irq = s.irq ∧ ((freeBit s).2).fcol = s.fcol ∧
    ((freeBit s).2).link = s.link ∧ ((freeBit s).2).mgmt = s.mgmt ∧ ((freeBit s).2).fix = s.fix ∧
    ((freeBit s).2).io = s.io ∧ ((freeBit s).2).banks = s.banks ∧ ((freeBit s).2).memc = s.memc ∧
    ((freeBit s).2).units = s.units ∧ ((freeBit s).2).bench = s.bench ∧ ((freeBit s).2).leaf = s.leaf ∧
    ((freeBit s).2).rcp = s.rcp ∧ ((freeBit s).2).log = s.log ∧ ((freeBit s).2).cap = s.cap ∧
    ((freeBit s).2).sec = s.sec ∧ ((freeBit s).2).hk = s.hk ∧ ((freeBit s).2).nvm = s.nvm ∧
    ((freeBit s).2).sup = s.sup ∧ ((freeBit s).2).digest = s.digest ∧ ((freeBit s).2).frame = s.frame := by
  simp [freeBit]

@[simp] theorem freeWord_snd_keeps  :
    ((freeWord s).2).pending = s.pending ∧ ((freeWord s).2).regs = s.regs ∧ ((freeWord s).2).com = s.com ∧
    ((freeWord s).2).ch = s.ch ∧ ((freeWord s).2).sys = s.sys ∧ ((freeWord s).2).clk = s.clk ∧
    ((freeWord s).2).pwr = s.pwr ∧ ((freeWord s).2).irq = s.irq ∧ ((freeWord s).2).fcol = s.fcol ∧
    ((freeWord s).2).link = s.link ∧ ((freeWord s).2).mgmt = s.mgmt ∧ ((freeWord s).2).fix = s.fix ∧
    ((freeWord s).2).io = s.io ∧ ((freeWord s).2).banks = s.banks ∧ ((freeWord s).2).memc = s.memc ∧
    ((freeWord s).2).units = s.units ∧ ((freeWord s).2).bench = s.bench ∧ ((freeWord s).2).leaf = s.leaf ∧
    ((freeWord s).2).rcp = s.rcp ∧ ((freeWord s).2).log = s.log ∧ ((freeWord s).2).cap = s.cap ∧
    ((freeWord s).2).sec = s.sec ∧ ((freeWord s).2).hk = s.hk ∧ ((freeWord s).2).nvm = s.nvm ∧
    ((freeWord s).2).sup = s.sup ∧ ((freeWord s).2).digest = s.digest ∧ ((freeWord s).2).frame = s.frame := by
  simp [freeWord]

@[simp] theorem freeWords_snd_keeps (n : Nat) :
    ((freeWords n s).2).pending = s.pending ∧ ((freeWords n s).2).regs = s.regs ∧ ((freeWords n s).2).com = s.com ∧
    ((freeWords n s).2).ch = s.ch ∧ ((freeWords n s).2).sys = s.sys ∧ ((freeWords n s).2).clk = s.clk ∧
    ((freeWords n s).2).pwr = s.pwr ∧ ((freeWords n s).2).irq = s.irq ∧ ((freeWords n s).2).fcol = s.fcol ∧
    ((freeWords n s).2).link = s.link ∧ ((freeWords n s).2).mgmt = s.mgmt ∧ ((freeWords n s).2).fix = s.fix ∧
    ((freeWords n s).2).io = s.io ∧ ((freeWords n s).2).banks = s.banks ∧ ((freeWords n s).2).memc = s.memc ∧
    ((freeWords n s).2).units = s.units ∧ ((freeWords n s).2).bench = s.bench ∧ ((freeWords n s).2).leaf = s.leaf ∧
    ((freeWords n s).2).rcp = s.rcp ∧ ((freeWords n s).2).log = s.log ∧ ((freeWords n s).2).cap = s.cap ∧
    ((freeWords n s).2).sec = s.sec ∧ ((freeWords n s).2).hk = s.hk ∧ ((freeWords n s).2).nvm = s.nvm ∧
    ((freeWords n s).2).sup = s.sup ∧ ((freeWords n s).2).digest = s.digest ∧ ((freeWords n s).2).frame = s.frame := by
  simp [freeWords]

@[simp] theorem putWord_keeps (b : Bank) (a : Nat) (v : Word) :
    (s.putWord b a v).pending = s.pending ∧ (s.putWord b a v).regs = s.regs ∧ (s.putWord b a v).com = s.com ∧
    (s.putWord b a v).ch = s.ch ∧ (s.putWord b a v).sys = s.sys ∧ (s.putWord b a v).clk = s.clk ∧
    (s.putWord b a v).pwr = s.pwr ∧ (s.putWord b a v).irq = s.irq ∧ (s.putWord b a v).fcol = s.fcol ∧
    (s.putWord b a v).link = s.link ∧ (s.putWord b a v).mgmt = s.mgmt ∧ (s.putWord b a v).fix = s.fix ∧
    (s.putWord b a v).io = s.io ∧ (s.putWord b a v).memc = s.memc ∧ (s.putWord b a v).bench = s.bench ∧
    (s.putWord b a v).leaf = s.leaf ∧ (s.putWord b a v).rcp = s.rcp ∧ (s.putWord b a v).log = s.log ∧
    (s.putWord b a v).cap = s.cap ∧ (s.putWord b a v).sec = s.sec ∧ (s.putWord b a v).hk = s.hk ∧
    (s.putWord b a v).nvm = s.nvm ∧ (s.putWord b a v).sup = s.sup ∧ (s.putWord b a v).digest = s.digest ∧
    (s.putWord b a v).frame = s.frame ∧ (s.putWord b a v).free = s.free := by
  simp [State.putWord]

@[simp] theorem putWords_keeps (b : Bank) (a : Nat) (v : List Word) :
    (s.putWords b a v).pending = s.pending ∧ (s.putWords b a v).regs = s.regs ∧ (s.putWords b a v).com = s.com ∧
    (s.putWords b a v).ch = s.ch ∧ (s.putWords b a v).sys = s.sys ∧ (s.putWords b a v).clk = s.clk ∧
    (s.putWords b a v).pwr = s.pwr ∧ (s.putWords b a v).irq = s.irq ∧ (s.putWords b a v).fcol = s.fcol ∧
    (s.putWords b a v).link = s.link ∧ (s.putWords b a v).mgmt = s.mgmt ∧ (s.putWords b a v).fix = s.fix ∧
    (s.putWords b a v).io = s.io ∧ (s.putWords b a v).memc = s.memc ∧ (s.putWords b a v).bench = s.bench ∧
    (s.putWords b a v).leaf = s.leaf ∧ (s.putWords b a v).rcp = s.rcp ∧ (s.putWords b a v).log = s.log ∧
    (s.putWords b a v).cap = s.cap ∧ (s.putWords b a v).sec = s.sec ∧ (s.putWords b a v).hk = s.hk ∧
    (s.putWords b a v).nvm = s.nvm ∧ (s.putWords b a v).sup = s.sup ∧ (s.putWords b a v).digest = s.digest ∧
    (s.putWords b a v).frame = s.frame ∧ (s.putWords b a v).free = s.free := by
  simp [State.putWords]

/-! ### Values -/

theorem raise_status (b : Fin 53) (bits : Word) : (raise b bits s).com[b.val].status = s.com[b.val].status ||| bits := by
  simp [raise]

theorem raise_other {b c : Fin 53} (bits : Word) (h : c ≠ b) : (raise b bits s).com[c.val] = s.com[c.val] :=
  modCom_other s _ h

theorem cell_modCell (n : Chan) (f : Ch → Ch) : (s.modCell n f).cell n = f (s.cell n) :=
  modCh_same s (dr n) f

theorem cell_modCell_other {n k : Chan} (f : Ch → Ch) (h : k ≠ n) : (s.modCell n f).cell k = s.cell k :=
  modCh_other s f fun e => h (by simpa [dr] using e)

theorem cell_modSeq (n : Chan) (f : Seq → Seq) : (s.modSeq n f).cell n = { s.cell n with seq := f (s.cell n).seq } :=
  cell_modCell s n _

theorem cell_modPs (n : Chan) (f : Stage → Stage) : (s.modPs n f).cell n = { s.cell n with ps := f (s.cell n).ps } :=
  cell_modCell s n _

/-! ### The register store -/

theorem setReg_wf {p o : Nat} {v : Word} (h : Regs.wf s.regs = true) : Regs.wf (s.setReg p o v).regs = true :=
  sparsePut_wf h (Nat.zero_le _)

theorem resetPage_wf {p : Nat} (h : Regs.wf s.regs = true) : Regs.wf (s.resetPage p).regs = true := sparseDrop_wf h

theorem reg_setReg {p o : Nat} {v : Word} (h : Regs.wf s.regs = true) : (s.setReg p o v).reg p o = v :=
  sparseGet_put_same h

theorem reg_setReg_other {p o p' o' : Nat} {v : Word} (h : Regs.wf s.regs = true) (hn : regKey p' o' ≠ regKey p o) :
    (s.setReg p o v).reg p' o' = s.reg p' o' := sparseGet_put_other hn h

/-! ### The memory banks -/

theorem memory_wf_iff {m : Banks} : Memory.wf m = true ↔ ∀ b, sparseWf (bankBlank b) 0 (m.cells b) = true := by
  simp only [Memory.wf, List.all_eq_true]
  exact ⟨fun h b => h b (by cases b <;> decide), fun h b _ => h b⟩

theorem cells_put {m : Banks} {b c : Bank} {l : List Host.Cell} : (m.put b l).cells c = if b = c then l else m.cells c := by
  cases b <;> cases c <;> rfl

@[simp] theorem cells_heal {m : Banks} {b c : Bank} {a e : Nat} : (m.heal b a e).cells c = m.cells c := by cases c <;> rfl

theorem put_wf {m : Banks} {b : Bank} {l : List Host.Cell} (h : Memory.wf m = true)
    (hl : sparseWf (bankBlank b) 0 l = true) : Memory.wf (m.put b l) = true := by
  refine memory_wf_iff.mpr fun c => ?_
  rw [cells_put]
  split
  · subst c; exact hl
  · exact memory_wf_iff.mp h c

theorem heal_wf {m : Banks} {b : Bank} {a e : Nat} (h : Memory.wf m = true) : Memory.wf (m.heal b a e) = true :=
  memory_wf_iff.mpr fun c => by rw [cells_heal]; exact memory_wf_iff.mp h c

/-- A write of bytes keeps the canonical form. -/
theorem putBytes_wf {b : Bank} {a : Nat} {vs : List Byte} (h : Memory.wf s.banks = true) :
    Memory.wf (s.putBytes b a vs).banks = true :=
  put_wf (heal_wf h) (sparsePutMany_wf (memory_wf_iff.mp h b) (Nat.zero_le _))

theorem putWord_wf {b : Bank} {a : Nat} {v : Word} (h : Memory.wf s.banks = true) :
    Memory.wf (s.putWord b a v).banks = true := putBytes_wf s h

theorem putWords_wf {b : Bank} {a : Nat} {vs : List Word} (h : Memory.wf s.banks = true) :
    Memory.wf (s.putWords b a vs).banks = true := putBytes_wf s h

theorem blankRange_wf {b : Bank} {a e : Nat} (h : Memory.wf s.banks = true) :
    Memory.wf (s.blankRange b a e).banks = true := put_wf (heal_wf h) (sparseDrop_wf (memory_wf_iff.mp h b))

/-- What a byte reads as after a write of bytes. -/
theorem byte_putBytes {b c : Bank} {a x : Nat} {vs : List Byte} (h : Memory.wf s.banks = true) :
    (s.putBytes b a vs).byte c x =
      if b = c ∧ a ≤ x then ((vs.take (bankSize b - a))[x - a]?).getD (s.byte c x) else s.byte c x := by
  have hb := memory_wf_iff.mp h b
  have e : (s.putBytes b a vs).banks = (s.banks.heal b a (a + vs.length)).put b
      (sparsePutMany (bankBlank b) a (vs.take (bankSize b - a)) (s.banks.cells b)) := rfl
  simp only [State.byte, e, cells_put, cells_heal]
  by_cases hc : b = c
  · subst hc
    simp only [if_true, true_and]
    rw [sparseGet_putMany hb (Nat.zero_le a)]
  · simp [hc]

/-- A blanked range reads as blank, every other byte as before. -/
theorem byte_blankRange {b c : Bank} {a e x : Nat} (h : Memory.wf s.banks = true) :
    (s.blankRange b a e).byte c x = if b = c ∧ a ≤ x ∧ x < e then bankBlank c x else s.byte c x := by
  have hb := memory_wf_iff.mp h b
  have e' : (s.blankRange b a e).banks = (s.banks.heal b a e).put b (sparseDrop a e (s.banks.cells b)) := rfl
  simp only [State.byte, e', cells_put, cells_heal]
  by_cases hc : b = c
  · subst hc
    simp only [if_true, true_and]
    rw [sparseGet_drop hb]
  · simp [hc]

end Sys2Proof.Machine
end

