-- ==== Sys2Proof/Laws/Settle.lean ====
section
/-! SUPPORT. What the operations that run over many channels or pins keep, and everything `settle` can do to a calm
state: the footprint that the laws of single commands rest on. -/

namespace Sys2Proof.Machine

/-! ### Runs over lists -/

/-- What each element keeps, the run over a list keeps. -/
theorem foldl_keeps {α : Type} {P : State → Prop} {f : State → α → State} (hf : ∀ s a, P s → P (f s a)) :
    ∀ (l : List α) (s : State), P s → P (l.foldl f s)
  | [], _, h => h
  | a :: l, s, h => foldl_keeps hf l (f s a) (hf s a h)

theorem forChans_keeps {P : State → Prop} {f : Chan → State → State} (hf : ∀ n s, P s → P (f n s)) (l : List Chan)
    (s : State) (h : P s) : P (forChans l f s) := foldl_keeps (fun s n => hf n s) l s h

/-! ### The footprint of settle -/

theorem settles_refl (s : State) : Settles s s := by constructor <;> simp

theorem settles_trans {s t u : State} (h : Settles s t) (k : Settles t u) : Settles s u where
  pending := k.pending.trans h.pending
  regs := k.regs.trans h.regs
  banks := k.banks.trans h.banks
  sys := k.sys.trans h.sys
  clk := k.clk.trans h.clk
  irq := k.irq.trans h.irq
  fcol := k.fcol.trans h.fcol
  link := k.link.trans h.link
  fix := k.fix.trans h.fix
  memc := k.memc.trans h.memc
  units := k.units.trans h.units
  bench := k.bench.trans h.bench
  leaf := k.leaf.trans h.leaf
  rcp := k.rcp.trans h.rcp
  log := k.log.trans h.log
  cap := k.cap.trans h.cap
  hk := k.hk.trans h.hk
  nvm := k.nvm.trans h.nvm
  sup := k.sup.trans h.sup
  digest := k.digest.trans h.digest
  frame := k.frame.trans h.frame
  free := k.free.trans h.free
  sec := by have a := h.sec; rw [← k.sec] at a; exact a
  pwr := by have a := h.pwr; rw [← k.pwr] at a; exact a
  mgmt := by have a := h.mgmt; rw [← k.mgmt] at a; exact a
  io := by have a := h.io; rw [← k.io] at a; exact a
  pins n := by have a := h.pins n; rw [← k.pins n] at a; exact a
  ch n := by have a := h.ch n; rw [← k.ch n] at a; exact a
  com b := by have a := h.com b; rw [← k.com b] at a; exact a
  status b h1 h2 := (k.status b h1 h2).trans (h.status b h1 h2)

theorem settles_calm {s t : State} (h : Settles s t) (c : Calm s) : Calm t := by
  simpa only [Calm, State.reg, State.rx, h.regs, h.bench, h.fcol] using c

theorem raiseBit_settles (s : State) (b : Fin 53) (i : Nat) (h : b = bIo24 ∨ b = bPwr) : Settles s (raiseBit b i s) := by
  have e : ∀ c : Fin 53, c ≠ b → (raiseBit b i s).com[c.val] = s.com[c.val] := fun c hc => raise_other s _ hc
  constructor <;> try simp
  · intro c
    by_cases hc : c = b
    · subst hc; simp [raiseBit, raise]
    · rw [e c hc]
  · intro c h1 h2
    rw [e c (by rintro rfl; rcases h with h | h <;> contradiction)]

theorem modPin_settles (s : State) (k : Fin 8) (on : Bool) : Settles s (s.modPin k fun p => { p with drove := on }) := by
  constructor <;> try simp
  · simp [State.modPin]
  · intro n
    by_cases hn : n = k
    · subst hn; simp [State.modPin]
    · have : k.val ≠ n.val := fun e => hn (Fin.ext e.symm)
      simp [State.modPin, this]

theorem settleOutputs_settles (s : State) : Settles s (settleOutputs s) := by
  refine foldl_keeps (P := Settles s) ?_ _ _ (settles_refl s)
  intro t k h
  refine settles_trans h ?_
  dsimp only
  split
  · split
    · exact modPin_settles t k _
    · exact settles_trans (modPin_settles t k _) (raiseBit_settles _ _ _ (.inl rfl))
  · exact settles_refl t

theorem settleDomains_settles (s : State) : Settles s (settleDomains s) := by
  unfold settleDomains
  split
  · exact settles_refl s
  · refine settles_trans ?_ (raiseBit_settles _ bPwr 0 (.inr rfl))
    constructor <;> simp

theorem settleAlerts_settles (s : State) : Settles s (settleAlerts s) := by
  constructor <;> simp [settleAlerts]

theorem noteWait_settles (n : Chan) (s : State) : Settles s (noteWait n s) := by
  unfold noteWait
  split
  · exact settles_refl s
  · split
    · exact settles_refl s
    · dsimp only
      split
      · exact settles_refl s
      · constructor <;> try simp [State.modSeq, State.modCell]
        intro k
        by_cases hk : k = dr n
        · subst hk; simp [State.modCh]
        · rw [modCh_other s _ hk]

theorem wakeBy_settles (code : BitVec 4) (pin : BitVec 3) (s : State) : Settles s (wakeBy code pin s) := by
  unfold wakeBy
  split
  · refine settles_trans ?_ (raiseBit_settles _ bPwr 2 (.inr rfl))
    constructor <;> simp
  · split
    · exact settles_refl s
    · constructor <;> simp

theorem settlePower_settles (s : State) : Settles s (settlePower s) := by
  unfold settlePower
  dsimp only
  split
  · exact wakeBy_settles _ _ s
  · exact settles_refl s

theorem uvGuard_calm {s : State} (c : Calm s) : uvGuard s = s := by simp [uvGuard, c.1]

theorem settleLid_settles {s : State} (c : Calm s) : Settles s (settleLid s) := by
  have h : s.lid = false := by simp [State.lid, c.2.1]
  simp only [settleLid, h, noteTrigger, Bool.false_and, Bool.false_eq_true, if_false]
  split
  · exact settles_refl s
  · constructor <;> simp

theorem settleReaction_calm {s : State} (c : Calm s) (nested : Bool) : settleReaction nested s = s := by
  unfold settleReaction
  split
  · rfl
  · rename_i x h
    simp [opReactionEnd, h, c.2.2 nested x h]

theorem settleReactions_calm {s : State} (c : Calm s) : settleReactions s = s := by
  rw [settleReactions, settleReaction_calm c, settleReaction_calm c]

/-- Everything settle can do to a calm state. -/
theorem settle_settles {s : State} (c : Calm s) : Settles s (settle s) := by
  have h1 : Settles s (settleOutputs (settleReactions (uvGuard s))) := by
    rw [uvGuard_calm c, settleReactions_calm c]
    exact settleOutputs_settles s
  have h2 := settles_trans h1 (settleLid_settles (settles_calm h1 c))
  have h3 := forChans_keeps (P := Settles s) (f := noteWait) (fun n t h => settles_trans h (noteWait_settles n t)) allChans _ h2
  exact settles_trans (settles_trans (settles_trans h3 (settleDomains_settles _)) (settleAlerts_settles _))
    (settlePower_settles _)

theorem settles_state {s t : State} (k : Settles s t) (n : Chan) : (t.cell n).seq.state = (s.cell n).seq.state := by
  have h := congrArg (fun x : Ch => x.seq.state) (k.ch (dr n))
  exact h

theorem settles_ps {s t : State} (k : Settles s t) (n : Chan) : (t.cell n).ps = (s.cell n).ps := by
  have h := congrArg Ch.ps (k.ch (dr n))
  exact h

theorem settles_com {s t : State} (k : Settles s t) {b : Fin 53} (h1 : b ≠ bIo24) (h2 : b ≠ bPwr) :
    t.com[b.val] = s.com[b.val] := by
  have a := k.com b
  rw [← k.status b h1 h2] at a
  exact a

theorem settles_byte {s t : State} (k : Settles s t) (b : Bank) (a : Nat) : t.byte b a = s.byte b a := by
  simp [State.byte, k.banks]

/-- What only settles keeps both stores canonical. -/
theorem settles_stored {s t : State} (k : Settles s t) (h : Stored s) : Stored t := by
  simpa [Stored, k.banks, k.regs] using h

/-! ### A command -/

/-- A command whose operation leads to a calm state completes there, settled. -/
theorem done_completes {s : State} (c : Calm s) : ∃ t, done s = .next t ∧ Settles s t :=
  ⟨settle s, rfl, settle_settles c⟩

end Sys2Proof.Machine
end

