-- ==== Sys2Proof/Laws/Keeps.lean ====
section
/-! SUPPORT. What the shared operations of channels, faults and recipes leave alone: the queue of commands always, and the
register store and the memory banks but for the operations that write records, capture slots or tuning words; those keep
both stores canonical. -/

namespace Sys2Proof.Machine

variable (s : State)

/-! ### Runs and choices -/

@[simp] theorem forChans_pending {f : Chan → State → State} (hf : ∀ n s, (f n s).pending = s.pending) (l : List Chan) :
    (forChans l f s).pending = s.pending := forChans_keeps (P :=
      fun t => t.pending = s.pending) (fun n t h => (hf n t).trans h) l s rfl

@[simp] theorem foldl_pending {α : Type} {f : State → α → State} (hf : ∀ s a, (f s a).pending = s.pending) (l : List α) :
    (l.foldl f s).pending = s.pending := foldl_keeps (P := fun t => t.pending = s.pending) (fun t a h => (hf t a).trans h) l s rfl

@[simp] theorem ite_pending (c : Prop) [Decidable c] (t : State) : (if c then s else t).pending = if c then s.pending else t.pending :=
  apply_ite State.pending c s t

@[simp] theorem forChans_regs {f : Chan → State → State} (hf : ∀ n s, (f n s).regs = s.regs) (l : List Chan) :
    (forChans l f s).regs = s.regs := forChans_keeps (P := fun t => t.regs = s.regs) (fun n t h => (hf n t).trans h) l s rfl

@[simp] theorem foldl_regs {α : Type} {f : State → α → State} (hf : ∀ s a, (f s a).regs = s.regs) (l : List α) :
    (l.foldl f s).regs = s.regs := foldl_keeps (P := fun t => t.regs = s.regs) (fun t a h => (hf t a).trans h) l s rfl

@[simp] theorem ite_regs (c : Prop) [Decidable c] (t : State) : (if c then s else t).regs = if c then s.regs else t.regs :=
  apply_ite State.regs c s t

@[simp] theorem forChans_banks {f : Chan → State → State} (hf : ∀ n s, (f n s).banks = s.banks) (l : List Chan) :
    (forChans l f s).banks = s.banks := forChans_keeps (P := fun t => t.banks = s.banks) (fun n t h => (hf n t).trans h) l s rfl

@[simp] theorem foldl_banks {α : Type} {f : State → α → State} (hf : ∀ s a, (f s a).banks = s.banks) (l : List α) :
    (l.foldl f s).banks = s.banks := foldl_keeps (P := fun t => t.banks = s.banks) (fun t a h => (hf t a).trans h) l s rfl

@[simp] theorem ite_banks (c : Prop) [Decidable c] (t : State) : (if c then s else t).banks = if c then s.banks else t.banks :=
  apply_ite State.banks c s t

/-! ### Operations that write neither store -/

@[simp] theorem dropUse_keeps (n : Chan) :
    (dropUse n s).pending = s.pending ∧ (dropUse n s).regs = s.regs ∧ (dropUse n s).banks = s.banks := by
  unfold dropUse <;> (try dsimp only) <;> (repeat' (split <;> (try dsimp only))) <;> simp

@[simp] theorem endUse_keeps (n : Chan) :
    (endUse n s).pending = s.pending ∧ (endUse n s).regs = s.regs ∧ (endUse n s).banks = s.banks := by
  unfold endUse <;> (try dsimp only) <;> (repeat' (split <;> (try dsimp only))) <;> simp

@[simp] theorem discardPoint_keeps (n : Chan) :
    (discardPoint n s).pending = s.pending ∧ (discardPoint n s).regs = s.regs ∧ (discardPoint n s).banks = s.banks := by
  unfold discardPoint <;> (try dsimp only) <;> (repeat' (split <;> (try dsimp only))) <;> simp

@[simp] theorem endCapture_keeps (n : Chan) :
    (endCapture n s).pending = s.pending ∧ (endCapture n s).regs = s.regs ∧ (endCapture n s).banks = s.banks := by
  unfold endCapture <;> (try dsimp only) <;> (repeat' (split <;> (try dsimp only))) <;> simp

@[simp] theorem endDcir_keeps (n : Chan) (inside complete : Bool) :
    (endDcir n inside complete s).pending = s.pending ∧ (endDcir n inside complete s).regs = s.regs
      ∧ (endDcir n inside complete s).banks = s.banks := by
  unfold endDcir <;> (try dsimp only) <;> (repeat' (split <;> (try dsimp only))) <;> simp

@[simp] theorem resetCapture_keeps  :
    (resetCapture s).pending = s.pending ∧ (resetCapture s).regs = s.regs ∧ (resetCapture s).banks = s.banks := by
  unfold resetCapture <;> (try dsimp only) <;> (repeat' (split <;> (try dsimp only))) <;> simp

@[simp] theorem pushRecord_keeps (r : RecordIn) :
    (pushRecord r s).pending = s.pending ∧ (pushRecord r s).regs = s.regs ∧ (pushRecord r s).banks = s.banks := by
  unfold pushRecord <;> (try dsimp only) <;> (repeat' (split <;> (try dsimp only))) <;> simp

@[simp] theorem applyTail_keeps  :
    (applyTail s).pending = s.pending ∧ (applyTail s).regs = s.regs ∧ (applyTail s).banks = s.banks := by
  unfold applyTail <;> (try dsimp only) <;> (repeat' (split <;> (try dsimp only))) <;> simp

@[simp] theorem seeUvw_keeps  :
    (seeUvw s).pending = s.pending ∧ (seeUvw s).regs = s.regs ∧ (seeUvw s).banks = s.banks := by
  unfold seeUvw <;> (try dsimp only) <;> (repeat' (split <;> (try dsimp only))) <;> simp

@[simp] theorem useVb_keeps (v : Int) :
    (useVb v s).pending = s.pending ∧ (useVb v s).regs = s.regs ∧ (useVb v s).banks = s.banks := by
  simp [useVb]

@[simp] theorem admitEntry_keeps (x : QEntry) :
    (admitEntry x s).pending = s.pending ∧ (admitEntry x s).regs = s.regs ∧ (admitEntry x s).banks = s.banks := by
  unfold admitEntry <;> (try dsimp only) <;> (repeat' (split <;> (try dsimp only))) <;> simp

@[simp] theorem noteNet_keeps  :
    (noteNet s).pending = s.pending ∧ (noteNet s).regs = s.regs ∧ (noteNet s).banks = s.banks := by
  unfold noteNet <;> (try dsimp only) <;> (repeat' (split <;> (try dsimp only))) <;> simp

@[simp] theorem estApplies_keeps (left : Nat) (n : Chan) :
    (estApplies left n s).pending = s.pending ∧ (estApplies left n s).regs = s.regs ∧ (estApplies left n s).banks = s.banks := by
  unfold estApplies <;> (try dsimp only) <;> (repeat' (split <;> (try dsimp only))) <;> simp

@[simp] theorem withdraw_keeps (i : Drawer) :
    (withdraw i s).pending = s.pending ∧ (withdraw i s).regs = s.regs ∧ (withdraw i s).banks = s.banks := by
  unfold withdraw <;> (try dsimp only) <;> (repeat' (split <;> (try dsimp only))) <;> simp

@[simp] theorem retrim_keeps (n : Chan) :
    (retrim n s).pending = s.pending ∧ (retrim n s).regs = s.regs ∧ (retrim n s).banks = s.banks := by
  unfold retrim <;> (try dsimp only) <;> (repeat' (split <;> (try dsimp only))) <;> simp

@[simp] theorem retrimAll_keeps  :
    (retrimAll s).pending = s.pending ∧ (retrimAll s).regs = s.regs ∧ (retrimAll s).banks = s.banks := by
  unfold retrimAll <;> (try dsimp only) <;> (repeat' (split <;> (try dsimp only))) <;> simp

@[simp] theorem setIref_keeps (n : Chan) (i : Int) :
    (setIref n i s).pending = s.pending ∧ (setIref n i s).regs = s.regs ∧ (setIref n i s).banks = s.banks := by
  unfold setIref <;> (try dsimp only) <;> (repeat' (split <;> (try dsimp only))) <;> simp

@[simp] theorem setVb_keeps (v : Int) :
    (setVb v s).pending = s.pending ∧ (setVb v s).regs = s.regs ∧ (setVb v s).banks = s.banks := by
  unfold setVb <;> (try dsimp only) <;> (repeat' (split <;> (try dsimp only))) <;> simp

@[simp] theorem updateKp_keeps  :
    (updateKp s).pending = s.pending ∧ (updateKp s).regs = s.regs ∧ (updateKp s).banks = s.banks := by
  unfold updateKp <;> (try dsimp only) <;> (repeat' (split <;> (try dsimp only))) <;> simp

@[simp] theorem setStateOne_keeps (n : Chan) (st : ChState) :
    (setStateOne n st s).pending = s.pending ∧ (setStateOne n st s).regs = s.regs ∧ (setStateOne n st s).banks = s.banks := by
  unfold setStateOne <;> (try dsimp only) <;> (repeat' (split <;> (try dsimp only))) <;> simp

@[simp] theorem setState_keeps (n : Chan) (st : ChState) :
    (setState n st s).pending = s.pending ∧ (setState n st s).regs = s.regs ∧ (setState n st s).banks = s.banks := by
  unfold setState <;> (try dsimp only) <;> (repeat' (split <;> (try dsimp only))) <;> simp

@[simp] theorem psEvt_keeps (n : Chan) (bits : Word) :
    (psEvt n bits s).pending = s.pending ∧ (psEvt n bits s).regs = s.regs ∧ (psEvt n bits s).banks = s.banks := by
  unfold psEvt <;> (try dsimp only) <;> (repeat' (split <;> (try dsimp only))) <;> simp

@[simp] theorem noteFsw_keeps (n : Chan) :
    (noteFsw n s).pending = s.pending ∧ (noteFsw n s).regs = s.regs ∧ (noteFsw n s).banks = s.banks := by
  unfold noteFsw <;> (try dsimp only) <;> (repeat' (split <;> (try dsimp only))) <;> simp

@[simp] theorem leaveBurst_keeps (n : Chan) :
    (leaveBurst n s).pending = s.pending ∧ (leaveBurst n s).regs = s.regs ∧ (leaveBurst n s).banks = s.banks := by
  unfold leaveBurst <;> (try dsimp only) <;> (repeat' (split <;> (try dsimp only))) <;> simp

@[simp] theorem stopPaths_keeps (n : Chan) :
    (stopPaths n s).pending = s.pending ∧ (stopPaths n s).regs = s.regs ∧ (stopPaths n s).banks = s.banks := by
  unfold stopPaths <;> (try dsimp only) <;> (repeat' (split <;> (try dsimp only))) <;> simp

@[simp] theorem stopHalf_keeps (n : Chan) :
    (stopHalf n s).pending = s.pending ∧ (stopHalf n s).regs = s.regs ∧ (stopHalf n s).banks = s.banks := by
  unfold stopHalf <;> (try dsimp only) <;> (repeat' (split <;> (try dsimp only))) <;> simp

@[simp] theorem hardStop_keeps (n : Chan) :
    (hardStop n s).pending = s.pending ∧ (hardStop n s).regs = s.regs ∧ (hardStop n s).banks = s.banks := by
  unfold hardStop <;> (try dsimp only) <;> (repeat' (split <;> (try dsimp only))) <;> simp

@[simp] theorem rampToZero_keeps (n : Chan) :
    (rampToZero n s).pending = s.pending ∧ (rampToZero n s).regs = s.regs ∧ (rampToZero n s).banks = s.banks := by
  unfold rampToZero <;> (try dsimp only) <;> (repeat' (split <;> (try dsimp only))) <;> simp

@[simp] theorem decayContr_keeps (n : Chan) :
    (decayContr n s).pending = s.pending ∧ (decayContr n s).regs = s.regs ∧ (decayContr n s).banks = s.banks := by
  unfold decayContr <;> (try dsimp only) <;> (repeat' (split <;> (try dsimp only))) <;> simp

@[simp] theorem spoilDcir_keeps (n : Chan) :
    (spoilDcir n s).pending = s.pending ∧ (spoilDcir n s).regs = s.regs ∧ (spoilDcir n s).banks = s.banks := by
  unfold spoilDcir <;> (try dsimp only) <;> (repeat' (split <;> (try dsimp only))) <;> simp

@[simp] theorem withdrawCh_keeps (n : Chan) :
    (withdrawCh n s).pending = s.pending ∧ (withdrawCh n s).regs = s.regs ∧ (withdrawCh n s).banks = s.banks := by
  unfold withdrawCh <;> (try dsimp only) <;> (repeat' (split <;> (try dsimp only))) <;> simp

@[simp] theorem stepRecord_keeps (n : Chan) (o : Owed) :
    (stepRecord n o s).pending = s.pending ∧ (stepRecord n o s).regs = s.regs ∧ (stepRecord n o s).banks = s.banks := by
  unfold stepRecord <;> (try dsimp only) <;> (repeat' (split <;> (try dsimp only))) <;> simp

@[simp] theorem startRamp_keeps (toFault : Bool) (n : Chan) :
    (startRamp toFault n s).pending = s.pending ∧ (startRamp toFault n s).regs = s.regs
      ∧ (startRamp toFault n s).banks = s.banks := by
  unfold startRamp <;> (try dsimp only) <;> (repeat' (split <;> (try dsimp only))) <;> simp

@[simp] theorem endRamp_keeps (n : Chan) :
    (endRamp n s).pending = s.pending ∧ (endRamp n s).regs = s.regs ∧ (endRamp n s).banks = s.banks := by
  unfold endRamp <;> (try dsimp only) <;> (repeat' (split <;> (try dsimp only))) <;> simp

/-- What the halves that are off in NAP stop keeps the queue and both stores. -/
@[simp] theorem stopOff_keeps :
    (stopOff s).pending = s.pending ∧ (stopOff s).regs = s.regs ∧ (stopOff s).banks = s.banks := by
  unfold stopOff
  split
  · simp
  · refine forChans_keeps (P := fun t : State => t.pending = s.pending ∧ t.regs = s.regs ∧ t.banks = s.banks) ?_ _ _ (by simp)
    intro n t h
    split
    · exact h
    · simpa using h

@[simp] theorem formGang_keeps (n : Chan) :
    (formGang n s).pending = s.pending ∧ (formGang n s).regs = s.regs ∧ (formGang n s).banks = s.banks := by
  unfold formGang <;> (try dsimp only) <;> (repeat' (split <;> (try dsimp only))) <;> simp

@[simp] theorem leafIdle_keeps  :
    (leafIdle s).pending = s.pending ∧ (leafIdle s).regs = s.regs ∧ (leafIdle s).banks = s.banks := by
  unfold leafIdle <;> (try dsimp only) <;> (repeat' (split <;> (try dsimp only))) <;> simp

@[simp] theorem leafDefer_keeps (n : Nat) :
    (leafDefer n s).pending = s.pending ∧ (leafDefer n s).regs = s.regs ∧ (leafDefer n s).banks = s.banks := by
  unfold leafDefer <;> (try dsimp only) <;> (repeat' (split <;> (try dsimp only))) <;> simp

@[simp] theorem leafLeave_keeps (defer : Bool) :
    (leafLeave defer s).pending = s.pending ∧ (leafLeave defer s).regs = s.regs ∧ (leafLeave defer s).banks = s.banks := by
  unfold leafLeave <;> (try dsimp only) <;> (repeat' (split <;> (try dsimp only))) <;> simp

@[simp] theorem leafServed_keeps  :
    (leafServed s).pending = s.pending ∧ (leafServed s).regs = s.regs ∧ (leafServed s).banks = s.banks := by
  unfold leafServed <;> (try dsimp only) <;> (repeat' (split <;> (try dsimp only))) <;> simp

@[simp] theorem leafBroken_keeps :
    (leafBroken s).pending = s.pending ∧ (leafBroken s).regs = s.regs ∧ (leafBroken s).banks = s.banks := by
  unfold leafBroken leafDefer
  repeat' split
  all_goals simp

@[simp] theorem leafBoundary_keeps  :
    (leafBoundary s).pending = s.pending ∧ (leafBoundary s).regs = s.regs ∧ (leafBoundary s).banks = s.banks := by
  unfold leafBoundary <;> (try dsimp only) <;> (repeat' (split <;> (try dsimp only))) <;> simp

@[simp] theorem setSafe_keeps (f : Fin 8 → Bool) :
    (setSafe f s).pending = s.pending ∧ (setSafe f s).regs = s.regs ∧ (setSafe f s).banks = s.banks := by
  unfold setSafe <;> (try dsimp only) <;> (repeat' (split <;> (try dsimp only))) <;> simp

@[simp] theorem setSafeAll_keeps  :
    (setSafeAll s).pending = s.pending ∧ (setSafeAll s).regs = s.regs ∧ (setSafeAll s).banks = s.banks := by
  unfold setSafeAll <;> (try dsimp only) <;> (repeat' (split <;> (try dsimp only))) <;> simp

@[simp] theorem beginSequence_keeps (k : SeqKind) :
    (beginSequence k s).pending = s.pending ∧ (beginSequence k s).regs = s.regs ∧ (beginSequence k s).banks = s.banks := by
  unfold beginSequence <;> (try dsimp only) <;> (repeat' (split <;> (try dsimp only))) <;> simp

@[simp] theorem triggerSequence_keeps (k : SeqKind) :
    (triggerSequence k s).pending = s.pending ∧ (triggerSequence k s).regs = s.regs ∧ (triggerSequence k s).banks = s.banks := by
  unfold triggerSequence <;> (try dsimp only) <;> (repeat' (split <;> (try dsimp only))) <;> simp

@[simp] theorem pendInc_keeps  :
    (pendInc s).pending = s.pending ∧ (pendInc s).regs = s.regs ∧ (pendInc s).banks = s.banks := by
  unfold pendInc <;> (try dsimp only) <;> (repeat' (split <;> (try dsimp only))) <;> simp

@[simp] theorem resetFixture_keeps  :
    (resetFixture s).pending = s.pending ∧ (resetFixture s).regs = s.regs ∧ (resetFixture s).banks = s.banks := by
  unfold resetFixture <;> (try dsimp only) <;> (repeat' (split <;> (try dsimp only))) <;> simp

@[simp] theorem emptyBuffer_keeps  :
    (emptyBuffer s).pending = s.pending ∧ (emptyBuffer s).regs = s.regs ∧ (emptyBuffer s).banks = s.banks := by
  unfold emptyBuffer <;> (try dsimp only) <;> (repeat' (split <;> (try dsimp only))) <;> simp

@[simp] theorem resetLink_keeps  :
    (resetLink s).pending = s.pending ∧ (resetLink s).regs = s.regs ∧ (resetLink s).banks = s.banks := by
  unfold resetLink <;> (try dsimp only) <;> (repeat' (split <;> (try dsimp only))) <;> simp

@[simp] theorem resetMgmt_keeps  :
    (resetMgmt s).pending = s.pending ∧ (resetMgmt s).regs = s.regs ∧ (resetMgmt s).banks = s.banks := by
  unfold resetMgmt <;> (try dsimp only) <;> (repeat' (split <;> (try dsimp only))) <;> simp

@[simp] theorem resetBench_keeps  :
    (resetBench s).pending = s.pending ∧ (resetBench s).regs = s.regs ∧ (resetBench s).banks = s.banks := by
  unfold resetBench <;> (try dsimp only) <;> (repeat' (split <;> (try dsimp only))) <;> simp

@[simp] theorem resetChains_keeps (b : Bool) :
    (resetChains b s).pending = s.pending ∧ (resetChains b s).regs = s.regs ∧ (resetChains b s).banks = s.banks := by
  unfold resetChains <;> (try dsimp only) <;> (repeat' (split <;> (try dsimp only))) <;> simp

@[simp] theorem resetUnits_keeps (b : Bool) :
    (resetUnits b s).pending = s.pending ∧ (resetUnits b s).regs = s.regs ∧ (resetUnits b s).banks = s.banks := by
  unfold resetUnits <;> (try dsimp only) <;> (repeat' (split <;> (try dsimp only))) <;> simp

@[simp] theorem resetIo24_keeps  :
    (resetIo24 s).pending = s.pending ∧ (resetIo24 s).regs = s.regs ∧ (resetIo24 s).banks = s.banks := by
  unfold resetIo24 <;> (try dsimp only) <;> (repeat' (split <;> (try dsimp only))) <;> simp

@[simp] theorem resetUnit_keeps (u : Fin 2) :
    (resetUnit u s).pending = s.pending ∧ (resetUnit u s).regs = s.regs ∧ (resetUnit u s).banks = s.banks := by
  unfold resetUnit <;> (try dsimp only) <;> (repeat' (split <;> (try dsimp only))) <;> simp

@[simp] theorem restartCore_keeps  :
    (restartCore s).pending = s.pending ∧ (restartCore s).regs = s.regs ∧ (restartCore s).banks = s.banks := by
  unfold restartCore <;> (try dsimp only) <;> (repeat' (split <;> (try dsimp only))) <;> simp

@[simp] theorem resetNvm_keeps  :
    (resetNvm s).pending = s.pending ∧ (resetNvm s).regs = s.regs ∧ (resetNvm s).banks = s.banks := by
  unfold resetNvm <;> (try dsimp only) <;> (repeat' (split <;> (try dsimp only))) <;> simp

@[simp] theorem latchReport_keeps (l : Line) (c : FClass) :
    (latchReport l c s).pending = s.pending ∧ (latchReport l c s).regs = s.regs ∧ (latchReport l c s).banks = s.banks := by
  unfold latchReport <;> (try dsimp only) <;> (repeat' (split <;> (try dsimp only))) <;> simp

@[simp] theorem captureReport_keeps (r : Report) (c : FClass) (last : Bool) :
    (captureReport r c last s).pending = s.pending ∧ (captureReport r c last s).regs = s.regs
      ∧ (captureReport r c last s).banks = s.banks := by
  unfold captureReport <;> (try dsimp only) <;> (repeat' (split <;> (try dsimp only))) <;> simp

@[simp] theorem shadowReport_keeps (r : Report) (inB : Bool) :
    (shadowReport r inB s).pending = s.pending ∧ (shadowReport r inB s).regs = s.regs
      ∧ (shadowReport r inB s).banks = s.banks := by
  unfold shadowReport <;> (try dsimp only) <;> (repeat' (split <;> (try dsimp only))) <;> simp

@[simp] theorem Reaction.finish_keeps (x : Reaction) :
    (Reaction.finish x s).pending = s.pending ∧ (Reaction.finish x s).regs = s.regs ∧ (Reaction.finish x s).banks = s.banks := by
  unfold Reaction.finish <;> (try dsimp only) <;> (repeat' (split <;> (try dsimp only))) <;> simp

@[simp] theorem countParity_keeps (b : Bank) :
    (countParity b s).pending = s.pending ∧ (countParity b s).regs = s.regs ∧ (countParity b s).banks = s.banks := by
  unfold countParity <;> (try dsimp only) <;> (repeat' (split <;> (try dsimp only))) <;> simp

@[simp] theorem checkOnly_keeps (b : Bank) :
    (checkOnly b s).pending = s.pending ∧ (checkOnly b s).regs = s.regs ∧ (checkOnly b s).banks = s.banks := by
  unfold checkOnly <;> (try dsimp only) <;> (repeat' (split <;> (try dsimp only))) <;> simp

@[simp] theorem memErr_keeps (code a : Nat) :
    (memErr code a s).pending = s.pending ∧ (memErr code a s).regs = s.regs ∧ (memErr code a s).banks = s.banks := by
  unfold memErr <;> (try dsimp only) <;> (repeat' (split <;> (try dsimp only))) <;> simp

@[simp] theorem markStale_keeps (e : Fin 1024) :
    (markStale e s).pending = s.pending ∧ (markStale e s).regs = s.regs ∧ (markStale e s).banks = s.banks := by
  unfold markStale <;> (try dsimp only) <;> (repeat' (split <;> (try dsimp only))) <;> simp

@[simp] theorem startRecovery_keeps (b : Bank) (a : Nat) (m : Master) (acc : Acc) :
    (startRecovery b a m acc s).pending = s.pending ∧ (startRecovery b a m acc s).regs = s.regs
      ∧ (startRecovery b a m acc s).banks = s.banks := by
  unfold startRecovery <;> (try dsimp only) <;> (repeat' (split <;> (try dsimp only))) <;> simp

@[simp] theorem collide_keeps (c : BitVec 4) :
    (collide c s).pending = s.pending ∧ (collide c s).regs = s.regs ∧ (collide c s).banks = s.banks := by
  unfold collide <;> (try dsimp only) <;> (repeat' (split <;> (try dsimp only))) <;> simp

@[simp] theorem startPath_keeps (r ta : Nat) (lead : Bool) (k : Chan) :
    (startPath r ta lead k s).pending = s.pending ∧ (startPath r ta lead k s).regs = s.regs
      ∧ (startPath r ta lead k s).banks = s.banks := by
  unfold startPath <;> (try dsimp only) <;> (repeat' (split <;> (try dsimp only))) <;> simp

@[simp] theorem noteClamp_keeps (k : Chan) (x : Int) (on : Bool) :
    (noteClamp k x on s).pending = s.pending ∧ (noteClamp k x on s).regs = s.regs ∧ (noteClamp k x on s).banks = s.banks := by
  unfold noteClamp <;> (try dsimp only) <;> (repeat' (split <;> (try dsimp only))) <;> simp

@[simp] theorem setReference_keeps (n : Chan) (st : Step) (x : Int) :
    (setReference n st x s).pending = s.pending ∧ (setReference n st x s).regs = s.regs
      ∧ (setReference n st x s).banks = s.banks := by
  unfold setReference <;> (try dsimp only) <;> (repeat' (split <;> (try dsimp only))) <;> simp

@[simp] theorem applyReference_keeps (n : Chan) (st : Step) :
    (applyReference n st s).pending = s.pending ∧ (applyReference n st s).regs = s.regs
      ∧ (applyReference n st s).banks = s.banks := by
  unfold applyReference <;> (try dsimp only) <;> (repeat' (split <;> (try dsimp only))) <;> simp

@[simp] theorem holdLowV_keeps (n : Chan) :
    (holdLowV n s).pending = s.pending ∧ (holdLowV n s).regs = s.regs ∧ (holdLowV n s).banks = s.banks := by
  unfold holdLowV <;> (try dsimp only) <;> (repeat' (split <;> (try dsimp only))) <;> simp

@[simp] theorem applySetpoint_keeps (n : Chan) (st : Step) :
    (applySetpoint n st s).pending = s.pending ∧ (applySetpoint n st s).regs = s.regs
      ∧ (applySetpoint n st s).banks = s.banks := by
  unfold applySetpoint
  split
  · simp
  · split
    · simp
    · dsimp only
      generalize hq : (if st.range = 2 ∧ (s.cell n).fv < 300000 then forChans (s.gangOf n) stopHalf s else s) = q
      have h : q.pending = s.pending ∧ q.regs = s.regs ∧ q.banks = s.banks := by subst hq; split <;> simp
      rw [← h.1, ← h.2.1, ← h.2.2]
      (repeat' (split <;> (try dsimp only))) <;> simp

@[simp] theorem beginSetpoint_keeps (n : Chan) (st : Step) :
    (beginSetpoint n st s).pending = s.pending ∧ (beginSetpoint n st s).regs = s.regs
      ∧ (beginSetpoint n st s).banks = s.banks := by
  unfold beginSetpoint <;> (try dsimp only) <;> (repeat' (split <;> (try dsimp only))) <;> simp

@[simp] theorem admittedCh_keeps (n : Chan) :
    (admittedCh n s).pending = s.pending ∧ (admittedCh n s).regs = s.regs ∧ (admittedCh n s).banks = s.banks := by
  unfold admittedCh <;> (try dsimp only) <;> (repeat' (split <;> (try dsimp only))) <;> simp

@[simp] theorem waitQueued_keeps (n : Chan) :
    (waitQueued n s).pending = s.pending ∧ (waitQueued n s).regs = s.regs ∧ (waitQueued n s).banks = s.banks := by
  unfold waitQueued <;> (try dsimp only) <;> (repeat' (split <;> (try dsimp only))) <;> simp

@[simp] theorem refuse_keeps (n : Chan) (cmd code : Nat) :
    (refuse n cmd code s).pending = s.pending ∧ (refuse n cmd code s).regs = s.regs ∧ (refuse n cmd code s).banks = s.banks := by
  unfold refuse <;> (try dsimp only) <;> (repeat' (split <;> (try dsimp only))) <;> simp

@[simp] theorem clearForStart_keeps (n : Chan) :
    (clearForStart n s).pending = s.pending ∧ (clearForStart n s).regs = s.regs ∧ (clearForStart n s).banks = s.banks := by
  unfold clearForStart <;> (try dsimp only) <;> (repeat' (split <;> (try dsimp only))) <;> simp

@[simp] theorem suspend_keeps (n : Chan) :
    (suspend n s).pending = s.pending ∧ (suspend n s).regs = s.regs ∧ (suspend n s).banks = s.banks := by
  unfold suspend <;> (try dsimp only) <;> (repeat' (split <;> (try dsimp only))) <;> simp

@[simp] theorem opPause_keeps (n : Chan) :
    (opPause n s).pending = s.pending ∧ (opPause n s).regs = s.regs ∧ (opPause n s).banks = s.banks := by
  unfold opPause <;> (try dsimp only) <;> (repeat' (split <;> (try dsimp only))) <;> simp

@[simp] theorem opClear_keeps (n : Chan) :
    (opClear n s).pending = s.pending ∧ (opClear n s).regs = s.regs ∧ (opClear n s).banks = s.banks := by
  unfold opClear <;> (try dsimp only) <;> (repeat' (split <;> (try dsimp only))) <;> simp

@[simp] theorem noteWait_keeps (n : Chan) :
    (noteWait n s).pending = s.pending ∧ (noteWait n s).regs = s.regs ∧ (noteWait n s).banks = s.banks := by
  unfold noteWait <;> (try dsimp only) <;> (repeat' (split <;> (try dsimp only))) <;> simp

@[simp] theorem staleHold_keeps (n : Chan) (e : Fin 1024) :
    (staleHold n e s).pending = s.pending ∧ (staleHold n e s).regs = s.regs ∧ (staleHold n e s).banks = s.banks := by
  unfold staleHold <;> (try dsimp only) <;> (repeat' (split <;> (try dsimp only))) <;> simp

@[simp] theorem clearCapacity_keeps (n : Chan) (st : Step) :
    (clearCapacity n st s).pending = s.pending ∧ (clearCapacity n st s).regs = s.regs
      ∧ (clearCapacity n st s).banks = s.banks := by
  unfold clearCapacity <;> (try dsimp only) <;> (repeat' (split <;> (try dsimp only))) <;> simp

@[simp] theorem takeStep_keeps (n : Chan) (st : Step) :
    (takeStep n st s).pending = s.pending ∧ (takeStep n st s).regs = s.regs ∧ (takeStep n st s).banks = s.banks := by
  unfold takeStep <;> (try dsimp only) <;> (repeat' (split <;> (try dsimp only))) <;> simp

@[simp] theorem endRecipe_keeps (n : Chan) :
    (endRecipe n s).pending = s.pending ∧ (endRecipe n s).regs = s.regs ∧ (endRecipe n s).banks = s.banks := by
  unfold endRecipe <;> (try dsimp only) <;> (repeat' (split <;> (try dsimp only))) <;> simp

@[simp] theorem markStep_keeps (n : Chan) (st : Step) :
    (markStep n st s).pending = s.pending ∧ (markStep n st s).regs = s.regs ∧ (markStep n st s).banks = s.banks := by
  unfold markStep <;> (try dsimp only) <;> (repeat' (split <;> (try dsimp only))) <;> simp

@[simp] theorem abortRamp_keeps (n : Chan) :
    (abortRamp n s).pending = s.pending ∧ (abortRamp n s).regs = s.regs ∧ (abortRamp n s).banks = s.banks := by
  unfold abortRamp <;> (try dsimp only) <;> (repeat' (split <;> (try dsimp only))) <;> simp

@[simp] theorem opPeak_keeps (n : Chan) :
    (opPeak n s).pending = s.pending ∧ (opPeak n s).regs = s.regs ∧ (opPeak n s).banks = s.banks := by
  unfold opPeak <;> (try dsimp only) <;> (repeat' (split <;> (try dsimp only))) <;> simp

@[simp] theorem opBootUv_keeps (n : Chan) :
    (opBootUv n s).pending = s.pending ∧ (opBootUv n s).regs = s.regs ∧ (opBootUv n s).banks = s.banks := by
  unfold opBootUv <;> (try dsimp only) <;> (repeat' (split <;> (try dsimp only))) <;> simp

@[simp] theorem opDtlim_keeps (n : Chan) (high : Bool) :
    (opDtlim n high s).pending = s.pending ∧ (opDtlim n high s).regs = s.regs ∧ (opDtlim n high s).banks = s.banks := by
  unfold opDtlim <;> (try dsimp only) <;> (repeat' (split <;> (try dsimp only))) <;> simp

@[simp] theorem followDt_keeps (n : Chan) :
    (followDt n s).pending = s.pending ∧ (followDt n s).regs = s.regs ∧ (followDt n s).banks = s.banks := by
  unfold followDt <;> (try dsimp only) <;> (repeat' (split <;> (try dsimp only))) <;> simp

@[simp] theorem opFold_keeps (n : Chan) (on : Bool) :
    (opFold n on s).pending = s.pending ∧ (opFold n on s).regs = s.regs ∧ (opFold n on s).banks = s.banks := by
  unfold opFold <;> (try dsimp only) <;> (repeat' (split <;> (try dsimp only))) <;> simp

@[simp] theorem followLoop_keeps (n : Chan) (i : Int) :
    (followLoop n i s).pending = s.pending ∧ (followLoop n i s).regs = s.regs ∧ (followLoop n i s).banks = s.banks := by
  unfold followLoop <;> (try dsimp only) <;> (repeat' (split <;> (try dsimp only))) <;> simp

@[simp] theorem opBurst_keeps (n : Chan) (i : Int) :
    (opBurst n i s).pending = s.pending ∧ (opBurst n i s).regs = s.regs ∧ (opBurst n i s).banks = s.banks := by
  unfold opBurst <;> (try dsimp only) <;> (repeat' (split <;> (try dsimp only))) <;> simp

@[simp] theorem reclamp_keeps (n : Chan) :
    (reclamp n s).pending = s.pending ∧ (reclamp n s).regs = s.regs ∧ (reclamp n s).banks = s.banks := by
  unfold reclamp <;> (try dsimp only) <;> (repeat' (split <;> (try dsimp only))) <;> simp

@[simp] theorem bringCh_keeps (n : Chan) (xs : List RawSample) :
    (bringCh n xs s).pending = s.pending ∧ (bringCh n xs s).regs = s.regs ∧ (bringCh n xs s).banks = s.banks := by
  unfold bringCh <;> (try dsimp only) <;> (repeat' (split <;> (try dsimp only))) <;> simp

@[simp] theorem bring_keeps (x : Fresh) :
    (bring x s).pending = s.pending ∧ (bring x s).regs = s.regs ∧ (bring x s).banks = s.banks := by
  unfold bring <;> (try dsimp only) <;> (repeat' (split <;> (try dsimp only))) <;> simp

@[simp] theorem opPulse_keeps (n : Chan) (x : Fresh) :
    (opPulse n x s).pending = s.pending ∧ (opPulse n x s).regs = s.regs ∧ (opPulse n x s).banks = s.banks := by
  unfold opPulse <;> (try dsimp only) <;> (repeat' (split <;> (try dsimp only))) <;> simp

@[simp] theorem opCvPhase_keeps (n : Chan) :
    (opCvPhase n s).pending = s.pending ∧ (opCvPhase n s).regs = s.regs ∧ (opCvPhase n s).banks = s.banks := by
  unfold opCvPhase <;> (try dsimp only) <;> (repeat' (split <;> (try dsimp only))) <;> simp

@[simp] theorem opZeroEnd_keeps (n : Chan) :
    (opZeroEnd n s).pending = s.pending ∧ (opZeroEnd n s).regs = s.regs ∧ (opZeroEnd n s).banks = s.banks := by
  unfold opZeroEnd <;> (try dsimp only) <;> (repeat' (split <;> (try dsimp only))) <;> simp

@[simp] theorem opSwitchDone_keeps (n : Chan) (x : Fresh) :
    (opSwitchDone n x s).pending = s.pending ∧ (opSwitchDone n x s).regs = s.regs ∧ (opSwitchDone n x s).banks = s.banks := by
  unfold opSwitchDone <;> (try dsimp only) <;> (repeat' (split <;> (try dsimp only))) <;> simp

@[simp] theorem capErrFree_keeps (b : Fin 53) : (capErrFree b s).pending = s.pending ∧ (capErrFree b s).regs = s.regs ∧
    (capErrFree b s).banks = s.banks := by simp [capErrFree]

@[simp] theorem request_keeps (x : QEntry) : (request x s).2.pending = s.pending ∧ (request x s).2.regs = s.regs ∧
    (request x s).2.banks = s.banks := by
  unfold request; dsimp only; split <;> simp

@[simp] theorem sendRequest_keeps (n : Chan) (st : Step) (r : Bool) : (sendRequest n st r s).2.pending = s.pending ∧
    (sendRequest n st r s).2.regs = s.regs ∧ (sendRequest n st r s).2.banks = s.banks := by simp [sendRequest]

@[simp] theorem resumeStep_keeps (n : Chan) (st : Step) : (resumeStep n st s).pending = s.pending ∧
    (resumeStep n st s).regs = s.regs ∧ (resumeStep n st s).banks = s.banks := by
  unfold resumeStep; dsimp only; split
  · split <;> simp
  · simp

@[simp] theorem countReport_keeps (r : Report) : (countReport r s).2.pending = s.pending ∧
    (countReport r s).2.regs = s.regs ∧ (countReport r s).2.banks = s.banks := by simp [countReport]

@[simp] theorem normalReport_keeps (r : Report) : (normalReport r s).2.pending = s.pending ∧
    (normalReport r s).2.regs = s.regs ∧ (normalReport r s).2.banks = s.banks := by simp [normalReport]

@[simp] theorem loopStep_keeps (n : Chan) (st : Step) : (loopStep n st s).2.pending = s.pending ∧
    (loopStep n st s).2.regs = s.regs ∧ (loopStep n st s).2.banks = s.banks := by
  unfold loopStep; dsimp only; split
  · simp
  · split <;> simp

/-! ### Kept -/

/-- The queue is as before, and stores in canonical form stay so. -/
def Kept (s t : State) : Prop := t.pending = s.pending ∧ (Stored s → Stored t)

theorem kept_refl : Kept s s := ⟨rfl, id⟩

variable {s} {t u : State}

theorem kept_trans (h : Kept s t) (k : Kept t u) : Kept s u := ⟨k.1.trans h.1, fun w => k.2 (h.2 w)⟩

/-- An operation that writes neither store keeps both. -/
theorem kept_of (h : t.pending = s.pending ∧ t.regs = s.regs ∧ t.banks = s.banks) : Kept s t :=
  ⟨h.1, by simp [Stored, h.2.1, h.2.2]⟩

/-- Kept from the state before an operation that writes neither store. -/
theorem kept_step (h : Kept s t) (k : u.pending = t.pending ∧ u.regs = t.regs ∧ u.banks = t.banks) : Kept s u :=
  kept_trans h (kept_of k)

theorem kept_ite {c : Prop} [Decidable c] (h : Kept s t) (k : Kept s u) : Kept s (if c then t else u) := by
  split <;> assumption

theorem forChans_kept {f : Chan → State → State} (hf : ∀ n s, Kept s (f n s)) (l : List Chan) (s : State) :
    Kept s (forChans l f s) := forChans_keeps (P := Kept s) (fun n t h => kept_trans h (hf n t)) l s (kept_refl s)

theorem foldl_kept {α : Type} {f : State → α → State} (hf : ∀ s a, Kept s (f s a)) (l : List α) (s : State) :
    Kept s (l.foldl f s) := foldl_keeps (P := Kept s) (fun t a h => kept_trans h (hf t a)) l s (kept_refl s)

variable (s)

/-! ### Operations that write a store -/

theorem setReg_kept (p o : Nat) (v : Word) : Kept s (s.setReg p o v) :=
  ⟨by simp, fun w => ⟨by simpa using w.1, setReg_wf s w.2⟩⟩

theorem resetPage_kept (p : Nat) : Kept s (s.resetPage p) :=
  ⟨by simp, fun w => ⟨by simpa using w.1, resetPage_wf s w.2⟩⟩

theorem putWord_kept (b : Bank) (a : Nat) (v : Word) : Kept s (s.putWord b a v) :=
  ⟨by simp, fun w => ⟨putWord_wf s w.1, by simpa using w.2⟩⟩

theorem putWords_kept (b : Bank) (a : Nat) (v : List Word) : Kept s (s.putWords b a v) :=
  ⟨by simp, fun w => ⟨putWords_wf s w.1, by simpa using w.2⟩⟩

theorem putSlot_kept (n : Chan) (w : Nat) (v : Word) : Kept s (putSlot n w v s) := putWord_kept s _ _ _

theorem startUse_kept (n : Chan) (kind : BitVec 4) (e : Fin 1024) (w : Word) : Kept s (startUse n kind e w s) := by
  unfold startUse
  split
  · exact kept_refl s
  · refine kept_trans ?_ (putWords_kept _ _ _ _)
    exact kept_of (by dsimp only; split <;> simp)

theorem endSweep_kept (n : Chan) : Kept s (endSweep n s) := by
  unfold endSweep
  dsimp only
  split
  · exact kept_refl s
  · split
    · exact kept_of (by simp)
    · split
      · split
        · generalize hq : State.modCell n _ s = q
          exact kept_step (kept_trans (kept_of (by subst hq; simp)) (putSlot_kept q n 0 _)) (endUse_keeps _ n)
        · exact kept_of (by simp)
      · exact kept_of (by simp)

theorem writeRecord_kept (r : Record) : Kept s (writeRecord r s) := by
  unfold writeRecord
  dsimp only
  split
  · exact kept_refl s
  · split
    · exact kept_of (by simp)
    · exact kept_step (putWords_kept s .l (32 * (s.log.wrcnt.toNat % 8192)) (recordWords r.w s.log.wrcnt)) (by simp)

theorem readableOne_kept : Kept s (readableOne s) := by
  unfold readableOne
  split
  · exact kept_refl s
  · exact kept_trans (kept_of (by simp)) (writeRecord_kept _ _)

theorem flushRecords_kept : Kept s (flushRecords s) := by
  unfold flushRecords
  exact kept_trans (kept_of (by simp)) (foldl_kept (fun s r => writeRecord_kept s r) _ _)

theorem loadTuning_kept (n : Chan) : Kept s (loadTuning n s) := by
  unfold loadTuning
  split
  · exact kept_refl s
  · exact kept_trans (kept_trans (setReg_kept s _ _ _) (setReg_kept _ _ _ _)) (setReg_kept _ _ _ _)

theorem changeCfg_kept {f : State → State} (hf : Kept s (f s)) : Kept s (changeCfg f s) := by
  unfold changeCfg
  refine kept_trans hf (forChans_kept (fun n t => ?_) _ _)
  dsimp only
  have h : Kept t (if t.profile n ≠ s.profile n then leaveBurst n (loadTuning n t) else t) :=
    kept_ite (kept_step (loadTuning_kept t n) (leaveBurst_keeps _ n)) (kept_refl t)
  exact kept_ite (kept_step h (noteFsw_keeps _ n)) h

/-! ### Ending a step, SAFE and FAULT -/

theorem endStep_kept (n : Chan) (reason : Byte) (tw : Nat) (boundary : Bool) : Kept s (endStep n reason tw boundary s) := by
  unfold endStep
  split
  · exact kept_of (by simp)
  · dsimp only
    generalize hq : (if boundary = true then endCapture n s else s) = q
    have c : Kept s q := hq ▸ kept_ite (kept_of (endCapture_keeps s n)) (kept_refl s)
    have h := kept_step (kept_trans c (endSweep_kept q n))
      (u := endDcir n (!boundary) (decide (reason = 2)) (endSweep n q)) (by simp)
    split
    · exact kept_step h (by simp)
    · exact kept_step h (by simp)

theorem quit_kept (n : Chan) (reason : Option Byte) (boundary : Bool) : Kept s (quit n reason boundary s) := by
  unfold quit
  dsimp only
  split
  · rename_i r
    exact kept_step (kept_trans (kept_of (spoilDcir_keeps s n))
      (endStep_kept (spoilDcir n s) n r ((spoilDcir n s).cell n).seq.tw.toNat boundary)) (by simp)
  · exact kept_of (by simp)

theorem safeWith_kept (reason : Option Byte) (f b : Bool) (n : Chan) : Kept s (safeWith reason f b n s) := by
  unfold safeWith
  dsimp only
  split
  · exact kept_refl s
  · exact kept_refl s
  · split
    · exact kept_step (quit_kept s (s.leader n) reason b) (by simp)
    · exact kept_step (quit_kept s (s.leader n) reason b) (by simp)

theorem enterSafe_kept (n : Chan) : Kept s (enterSafe n s) := safeWith_kept s _ _ _ n

theorem allSafe_kept : Kept s (allSafe s) := forChans_kept (fun n t => enterSafe_kept t n) _ s

theorem allSafeRx_kept : Kept s (allSafeRx s) := allSafe_kept s

theorem faultStop_kept (n : Chan) : Kept s (faultStop n s) := by
  unfold faultStop
  dsimp only
  split
  · exact kept_step (kept_trans (kept_of (hardStop_keeps s (s.leader n))) (quit_kept _ (s.leader n) (some 5) false)) (by simp)
  · exact kept_of (by simp)

theorem vddpStop_kept : Kept s (vddpStop s) := by
  refine forChans_kept (fun n t => ?_) _ s
  dsimp only
  split
  · exact kept_of (by simp)
  · split
    · exact kept_trans (kept_of (by simp)) (enterSafe_kept _ n)
    · exact kept_of (by simp)

theorem failStop_kept (cause : BitVec 4) (line : Line) : Kept s (failStop cause line s) := by
  unfold failStop
  split
  · exact kept_refl s
  · dsimp only
    generalize hq : ({ s with fcol := { s.fcol with failStop := true, fsCause := cause, fsLine := line } } : State) = q
    exact kept_step (kept_trans (kept_of (by subst hq; simp)) (allSafe_kept q)) (by simp)

theorem vddpGuard_kept (n : Chan) : Kept s (vddpGuard n s) := kept_ite (enterSafe_kept s n) (kept_refl s)

/-! ### Block resets, reactions and reports -/

theorem resetRecipe_kept : Kept s (resetRecipe s) := by
  unfold resetRecipe
  dsimp only
  generalize hq : forChans allChans _ s = q
  have h : Kept s q := by
    subst hq
    exact forChans_kept (fun n t => kept_ite (safeWith_kept t _ _ _ n) (kept_refl t)) allChans s
  exact kept_step h (by simp)

theorem safeHalf_kept (b : Bool) : Kept s (safeHalf b s) :=
  forChans_kept (fun n t => kept_ite (enterSafe_kept t n) (kept_refl t)) _ s

theorem resetBroker_kept : Kept s (resetBroker s) := by
  unfold resetBroker
  dsimp only
  generalize hq : forChans allChans _ s = q
  have h : Kept s q := by
    subst hq
    exact forChans_kept (fun n t => kept_ite (enterSafe_kept t n) (kept_refl t)) allChans s
  exact kept_step h (by simp)

theorem closeLocks_kept (l : List (Fin 53)) : Kept s (l.foldl (fun s b => closeLock b s) s) :=
  foldl_kept (fun s b => kept_of (by simp)) l s

theorem blockReset_kept (l : Line) : Kept s (blockReset l s) := by
  unfold blockReset
  dsimp only
  have h := closeLocks_kept s (resetPages l)
  generalize (resetPages l).foldl (fun s b => closeLock b s) s = q at h ⊢
  split
  case h_7 => exact kept_trans h (resetBroker_kept q)
  case h_8 => exact kept_trans h (resetRecipe_kept q)
  case h_12 => exact kept_step (kept_trans h (safeHalf_kept q false)) (by simp)
  case h_13 => exact kept_step (kept_trans h (safeHalf_kept q true)) (by simp)
  case h_14 => exact kept_trans h (safeHalf_kept q false)
  case h_15 => exact kept_trans h (safeHalf_kept q true)
  all_goals exact kept_step h (by simp)

theorem runPart_kept (p : RxPart) : Kept s (runPart p s) := by
  unfold runPart
  split
  · exact forChans_kept (fun n t => enterSafe_kept t n) _ s
  · exact blockReset_kept s _
  · exact allSafeRx_kept s
  · exact kept_refl s

theorem startReaction_kept (ps : List RxPart) : Kept s (startReaction ps s) := by
  unfold startReaction
  dsimp only
  split
  · exact kept_refl s
  · split
    · exact kept_refl s
    · split
      · exact failStop_kept s _ _
      · split
        · exact kept_refl s
        · split
          · exact kept_step (foldl_kept (fun s p => runPart_kept s p) _ s) ⟨rfl, rfl, rfl⟩
          · exact kept_step (foldl_kept (fun s p => runPart_kept s p) _ s) ⟨rfl, rfl, rfl⟩

/-- The reports of one cycle: counted, captured and shadowed first, then the reaction. -/
theorem takeReports_kept (rs : List Report) : Kept s (takeReports rs s) := by
  unfold takeReports
  dsimp only
  refine kept_trans ?_ (startReaction_kept _ _)
  generalize rs.foldl (fun l r => insertReport r l) [] = l
  have : ∀ (l : List Report) (acc : List RxPart × State), Kept s acc.2 → Kept s (l.foldl (fun acc r =>
      match s.shadowOf r with
      | some b => (acc.1, shadowReport r b acc.2)
      | none => (acc.1 ++ [(normalReport r acc.2).1], (normalReport r acc.2).2)) acc).2 := by
    intro l
    induction l with
    | nil => exact fun _ h => h
    | cons r l ih =>
      intro acc h
      refine ih _ ?_
      dsimp only
      split
      · exact kept_step h (by simp)
      · exact kept_step h (by simp)
  exact this l ([], s) (kept_refl s)

/-- Reports, taken or held (R20). -/
theorem reports_kept (rs : List Report) : Kept s (reports rs s) :=
  kept_ite ⟨rfl, id⟩ (takeReports_kept s rs)

theorem report_kept (l : Line) (c : FClass) (n : Option Chan) (loc : Loc) (det : Nat) :
    Kept s (report l c n loc det s) := reports_kept s _

theorem blockError_kept (b : Fin 53) (d : Nat) (l : Line) (c : FClass) (n : Option Chan) (loc : Loc) (det : Nat) :
    Kept s (blockError b d l c n loc det s) := kept_trans (kept_of (by simp)) (report_kept _ _ _ _ _ _)

theorem bankReport_kept (l : Line) (c : FClass) (b : Bank) (a : Nat) (m : Master) (acc : Acc) :
    Kept s (bankReport l c b a m acc s) := reports_kept s _

theorem tripLocal_kept (n : Chan) (ts : List Trip) (d : BitVec 23) : Kept s (tripLocal n ts d s) := by
  unfold tripLocal
  dsimp only
  generalize hq : psEvt n _ s = q
  have h : Kept s q := kept_of (by subst hq; simp)
  split
  · exact kept_step (kept_trans h (faultStop_kept q n)) (by simp)
  · split
    · exact kept_step h (by simp)
    · exact kept_step (kept_trans h (enterSafe_kept q n)) (by simp)

/-- The trips of one cycle: the local reactions, then their reports. -/
theorem trips_kept (l : List (Chan × Trip)) : Kept s (trips l s) := by
  unfold trips
  dsimp only
  split
  · exact kept_refl s
  · refine kept_trans (forChans_kept (fun n u => ?_) _ s) (reports_kept _ _)
    split
    · exact kept_refl u
    · exact tripLocal_kept u n _ _

theorem opMismatch_kept (n : Chan) : Kept s (opMismatch n s) :=
  kept_ite (kept_refl s) (kept_trans (kept_of (by simp)) (report_kept _ _ _ _ _ _))

/-! ### Parity errors -/

/-- Bank words whose parity marks go: the contents stay. -/
theorem heal_kept (b : Bank) (a e : Nat) : Kept s { s with banks := s.banks.heal b a e } :=
  ⟨rfl, fun w => ⟨heal_wf w.1, w.2⟩⟩

theorem parityH_kept (a : Nat) (m : Master) (acc : Acc) : Kept s (parityH a m acc s) := by
  unfold parityH
  split
  · exact kept_trans (kept_trans (heal_kept s .h a (a + 4)) (kept_of (by simp))) (bankReport_kept _ _ _ _ _ _ _)
  · split
    · exact kept_of (by simp)
    · split
      · exact kept_refl s
      · exact kept_trans (kept_of (by simp)) (bankReport_kept _ _ _ _ _ _ _)

theorem nvmFail_kept (a : Nat) (m : Master) (acc : Acc) : Kept s (nvmFail a m acc s) := by
  unfold nvmFail
  exact kept_trans (kept_of (by simp)) (bankReport_kept _ _ _ _ _ _ _)

theorem parityS_kept (a : Nat) (m : Master) (acc : Acc) : Kept s (parityS a m acc s) := by
  unfold parityS
  dsimp only
  generalize hq : capErrFree bSec _ = q
  have h : Kept s q := kept_of (by subst hq; simp)
  split
  · exact kept_trans (kept_trans (kept_trans h (kept_of (countParity_keeps q .nvm))) (nvmFail_kept _ _ m acc))
      (bankReport_kept _ _ _ _ _ _ _)
  · refine kept_trans ?_ (bankReport_kept _ _ _ _ _ _ _)
    have k := kept_trans h (putWord_kept q .s a (q.mword .nvm (0xE000 + a)))
    exact kept_ite (kept_step k (by simp)) k

theorem parityC_kept (a : Nat) (m : Master) (acc : Acc) : Kept s (parityC a m acc s) := by
  unfold parityC
  dsimp only
  have rep (c : FClass) (t : State) : Kept t (bankReport (t.bankLine .c a) c .c a m acc (capErrFree bCap t)) :=
    kept_trans (kept_of (by simp)) (bankReport_kept _ _ _ _ _ _ _)
  split
  · exact rep _ s
  · split
    · split
      · split
        · exact kept_refl s
        · split
          · exact kept_trans (kept_of (by simp)) (rep _ _)
          · split
            · exact kept_trans (putSlot_kept s _ _ _) (rep _ _)
            · exact rep _ s
      · exact kept_trans (putSlot_kept s _ _ _) (rep _ _)
    · generalize hq : bankReport _ _ _ _ _ _ _ = q
      have h : Kept s q := hq ▸ rep .contained s
      exact kept_step (kept_trans h (putSlot_kept q _ 0 _)) (endUse_keeps _ _)

theorem parityError_kept (b : Bank) (a : Nat) (m : Master) (acc : Acc) : Kept s (parityError b a m acc s) := by
  unfold parityError
  dsimp only
  split
  · split
    · exact kept_of (by simp)
    · exact kept_trans (kept_of (by simp)) (bankReport_kept _ _ _ _ _ _ _)
  · split
    · exact kept_of (by simp)
    · exact kept_of (by simp)
  · exact kept_trans (kept_of (by simp)) (parityC_kept _ a m acc)
  · split
    · exact kept_of (by simp)
    · exact kept_trans (kept_of (by simp)) (parityH_kept _ a m acc)
  · exact kept_trans (kept_of (by simp)) (parityS_kept _ a m acc)
  · split
    · exact kept_trans (kept_of (by simp)) (nvmFail_kept _ a m acc)
    · exact kept_trans (kept_of (by simp)) (bankReport_kept _ _ _ _ _ _ _)

theorem readParity_kept (b : Bank) (a n : Nat) (m : Master) (acc : Acc) : Kept s (readParity b a n m acc s) :=
  foldl_kept (fun s e => parityError_kept s _ _ m acc) _ s

theorem readNvm_kept (l : List Upset) (a n : Nat) (m : Master) : Kept s (readNvm l a n m s) :=
  kept_trans (foldl_kept (fun s e => parityError_kept s _ _ m _) _ s) (readParity_kept _ _ _ _ _ _)

theorem readSecure_kept (l : List Upset) (a n : Nat) (m : Master) : Kept s (readSecure l a n m s) :=
  kept_trans (foldl_kept (fun s e => parityError_kept s _ _ m _) _ s) (readParity_kept _ _ _ _ _ _)

theorem meetParity_kept (l : List Upset) (words : List (Bank × Nat)) (m : Master) : Kept s (meetParity l words m s) :=
  kept_trans (foldl_kept (fun s e => parityError_kept s _ _ m _) _ s) (foldl_kept (fun s e => parityError_kept s _ _ m _) _ _)

/-! ### Channel commands -/

theorem cfgWrite_kept (n : Chan) (v : Word) (pre : ChState) : Kept s (cfgWrite n v pre s) := by
  unfold cfgWrite
  dsimp only
  split
  · exact kept_of (by simp)
  · generalize hq : changeCfg _ s = q
    have h : Kept s q := by subst hq; exact changeCfg_kept s (setReg_kept s _ _ _)
    split
    · exact kept_step h (by simp)
    · exact kept_step h (by simp)

theorem opArm_kept (n : Chan) : Kept s (opArm n s) := by
  unfold opArm
  dsimp only
  split
  · exact kept_of (by simp)
  · split
    · exact kept_of (by simp)
    · exact kept_ite (kept_refl s) (kept_trans (kept_of (by simp)) (vddpGuard_kept _ n))

theorem opStart_kept (n : Chan) : Kept s (opStart n s) := by
  unfold opStart
  dsimp only
  split
  · exact kept_of (by simp)
  · split
    · exact kept_of (by simp)
    · exact kept_trans (kept_of (by simp)) (vddpGuard_kept _ n)

theorem opStop_kept (n : Chan) : Kept s (opStop n s) := by
  unfold opStop
  dsimp only
  split
  · exact kept_of (by simp)
  · split
    · exact kept_of (by simp)
    · split
      · exact kept_of (by simp)
      · split
        · exact kept_step (kept_trans (kept_of (spoilDcir_keeps s n))
            (endStep_kept (spoilDcir n s) n 3 ((spoilDcir n s).cell n).seq.tw.toNat false)) (by simp)
        · exact kept_of (by simp)

theorem opSafe_kept (n : Chan) : Kept s (opSafe n s) := kept_ite (kept_of (by simp)) (enterSafe_kept s n)

theorem opResume_kept (n : Chan) : Kept s (opResume n s) := by
  unfold opResume
  split
  · exact kept_of (by simp)
  · split
    · exact kept_of (by simp)
    · split
      · exact kept_refl s
      · exact kept_trans (kept_of (by simp)) (vddpGuard_kept _ n)
      · exact kept_trans (kept_of (by simp)) (vddpGuard_kept _ n)
      · exact kept_trans (kept_of (by simp)) (vddpGuard_kept _ n)

theorem command_kept (n : Chan) (code : Nat) : Kept s (command n code s) := by
  unfold command
  split
  · exact opStart_kept s n
  · exact opStop_kept s n
  · exact kept_of (by simp)
  · exact opResume_kept s n
  · exact opSafe_kept s n
  · exact kept_of (by simp)
  · exact opArm_kept s n
  · exact kept_refl s

/-! ### Loading steps -/

theorem recipeError_kept (n : Chan) (e : Fin 1024) : Kept s (recipeError n e s) := blockError_kept s _ _ _ _ _ _ _

theorem loadFail_kept (n : Chan) (reason : Byte) (e : Fin 1024) : Kept s (loadFail n reason e s) :=
  kept_trans (kept_trans (kept_of (by simp)) (safeWith_kept _ _ _ _ n)) (recipeError_kept _ n e)

theorem loadCfg_kept (n : Chan) (st : Step) : Kept s (loadCfg n st s) := by
  unfold loadCfg
  dsimp only
  generalize hq : changeCfg _ s = q
  have h : Kept s q := by subst hq; exact changeCfg_kept s (setReg_kept s _ _ _)
  exact kept_step h (by simp)

theorem startUses_kept (n : Chan) (st : Step) : Kept s (startUses n st s) := by
  unfold startUses
  dsimp only
  generalize (_ && _ : Bool) = c
  generalize hq : (if c = true then leafLeave true s else s) = q
  have h : Kept s q := by subst hq; exact kept_ite (kept_of (by simp)) (kept_refl s)
  split
  · have k := kept_trans h (startUse_kept q n 2 st.entry 0)
    split
    · exact kept_step (kept_trans k (putSlot_kept _ n 6 (State.chReg (startUse n 2 st.entry 0 q) n.val 0x60))) (by simp)
    · exact kept_step k (by simp)
  · split
    · exact kept_step (kept_trans h (startUse_kept q n 3 st.entry (put st.descEntry.val 0))) (by simp)
    · split
      · refine kept_trans ?_ (startUse_kept _ n _ _ _)
        exact kept_step h ⟨rfl, rfl, rfl⟩
      · exact h

theorem startStep_kept (n : Chan) (st : Step) : Kept s (startStep n st s) := by
  unfold startStep
  dsimp only
  have h : Kept s (startUses n st (takeStep n st (loadCfg n st s))) :=
    kept_trans (kept_step (loadCfg_kept s n st) (by simp)) (startUses_kept _ n st)
  split
  · split
    · exact kept_step h (by simp)
    · exact kept_step h (by simp)
  · exact kept_step h (by simp)

theorem checkLoad_kept (n : Chan) (e : Fin 1024) {k : Step → State → State}
    (hk : ∀ st t, Kept t (k st t)) : Kept s (checkLoad n e s k) := by
  unfold checkLoad
  split
  · exact loadFail_kept s n 7 e
  · dsimp only
    have h := foldl_kept (f := fun s (r : Nat × Nat) => readParity .r r.1 r.2 .recipe .read s)
      (fun s r => readParity_kept s _ _ _ _ _) (s.loadWords n (s.fetchStep e)) s
    split
    · exact kept_step h (by simp)
    · split
      · exact kept_trans h (loadFail_kept _ n 8 e)
      · split
        · exact kept_trans h (loadFail_kept _ n 7 e)
        · exact kept_trans h (hk _ _)

theorem actionOf_kept {n : Chan} {w : Word} {e : Fin 1024} {t : State} (h : actionOf n w e s = .inr t) : Kept s t := by
  unfold actionOf at h
  split at h
  · cases h
  · cases h
  · cases h; exact kept_of (by simp)
  · cases h; exact kept_of (by simp)
  · cases h; exact safeWith_kept s _ _ _ n
  · cases h; exact safeWith_kept s _ _ _ n

theorem controlStep_kept {n : Chan} {cur prev : List (Option Int)} {st : Step} :
    Kept s (controlStep n cur prev st s).2 ∧ ∀ t, (controlStep n cur prev st s).1 = .inr t → Kept s t := by
  unfold controlStep
  dsimp only
  have h : Kept s (clearCapacity n st s) := kept_of (by simp)
  generalize clearCapacity n st s = q at h ⊢
  split
  · exact ⟨kept_step h (loopStep_keeps q n st), fun t h => by cases h⟩
  · split
    · split
      · exact ⟨h, fun t k => kept_trans h (actionOf_kept q k)⟩
      · exact ⟨h, fun t k => by cases k⟩
    · split
      · exact ⟨kept_step h (by simp), fun t k => by cases k⟩
      · exact ⟨h, fun t k => by cases k; exact kept_step h (by simp)⟩

theorem meetSafe_kept (n : Chan) : Kept s (meetSafe n s) := safeWith_kept s _ _ _ n

/-- What follows a control step: the next entry, or the end of the transition. -/
theorem transitNext_kept (n : Chan) (cur prev : List (Option Int)) (st : Step) (stop : Option Nat) (fuel : Nat)
    (ih : ∀ e u, Kept u (transit n cur prev (stop.map (· - 1)) fuel e u)) :
    Kept s (match controlStep n cur prev st s with
      | (.inl e', s) => transit n cur prev (stop.map (· - 1)) fuel e' s
      | (.inr t, _) => if stop.isSome then meetSafe n t else t) := by
  have h := controlStep_kept s (n := n) (cur := cur) (prev := prev) (st := st)
  split
  · rename_i e' u hu
    rw [hu] at h
    exact kept_trans h.1 (ih e' u)
  · rename_i t u hu
    rw [hu] at h
    exact kept_trans (h.2 t rfl) (kept_ite (meetSafe_kept t n) (kept_refl t))

theorem transit_kept (n : Chan) (cur prev : List (Option Int)) :
    ∀ (fuel : Nat) (stop : Option Nat) (e : Fin 1024) (s : State), Kept s (transit n cur prev stop fuel e s)
  | fuel, some 0, e, s => by
    rw [transit.eq_def]
    exact meetSafe_kept s n
  | 0, none, e, s => by
    unfold transit
    exact checkLoad_kept s n e fun st t => kept_ite (loadFail_kept t n 9 e) (kept_ite (meetSafe_kept t n) (startStep_kept t n st))
  | 0, some (k + 1), e, s => by
    unfold transit
    exact checkLoad_kept s n e fun st t => kept_ite (loadFail_kept t n 9 e) (kept_ite (meetSafe_kept t n) (startStep_kept t n st))
  | fuel + 1, none, e, s => by
    unfold transit
    exact checkLoad_kept s n e fun st t => kept_ite (transitNext_kept t n cur prev st none fuel fun e' u => transit_kept n cur prev fuel none e' u)
      (kept_ite (meetSafe_kept t n) (startStep_kept t n st))
  | fuel + 1, some (k + 1), e, s => by
    unfold transit
    exact checkLoad_kept s n e fun st t =>
      kept_ite (transitNext_kept t n cur prev st (some (k + 1)) fuel fun e' u => transit_kept n cur prev fuel (some k) e' u)
      (kept_ite (meetSafe_kept t n) (startStep_kept t n st))

theorem complete_kept (n : Chan) (stop : Option Nat) (cur prev : List (Option Int)) (st : Step) :
    Kept s (complete n stop cur prev st s) := kept_trans (endStep_kept s n _ _ _) (transit_kept n cur prev _ _ _ _)

theorem fire_kept (n : Chan) (stop : Option Nat) (cur prev : List (Option Int)) (st : Step) (j : Fin 4) :
    Kept s (fire n stop cur prev st j s) := by
  unfold fire
  dsimp only
  refine kept_trans (endStep_kept s n 1 j.val true) ?_
  split
  · exact transit_kept n cur prev _ _ _ _
  · exact kept_trans (actionOf_kept _ (by assumption)) (kept_ite (meetSafe_kept _ n) (kept_refl _))

theorem stepTimeout_kept (n : Chan) (boundary : Bool) : Kept s (stepTimeout n boundary s) := by
  unfold stepTimeout
  split
  · exact kept_refl s
  · exact kept_trans (kept_trans (endStep_kept s n _ _ _) (safeWith_kept _ _ _ _ n)) (recipeError_kept _ n _)

theorem opSteptime_kept (n : Chan) : Kept s (opSteptime n s) := kept_ite (stepTimeout_kept s n _) (kept_refl s)

/-! ### The link buffers -/

/-- A store in the link buffers keeps the memory canonical and every byte outside the n words from address a. -/
theorem storeLink_frame (bytes : List Byte) (a n : Nat) (h : Stored s) :
    Stored (storeLink bytes a n s) ∧ (storeLink bytes a n s).regs = s.regs
      ∧ ∀ b x, (b ≠ .h ∨ x < a ∨ a + 4 * n ≤ x) → (storeLink bytes a n s).byte b x = s.byte b x := by
  have hb := memory_wf_iff.mp h.1 .h
  refine ⟨⟨put_wf h.1 (sparsePutMany_wf hb (Nat.zero_le _)), h.2⟩, rfl, fun b x hx => ?_⟩
  unfold storeLink State.byte
  simp only [cells_put]
  by_cases hc : Bank.h = b
  · subst hc
    simp only [if_true]
    have hb' : sparseWf (bankBlank .h) 0 ((touchBank .h a (a + 4 * n) s).banks.cells .h) = true := hb
    rw [sparseGet_putMany hb' (Nat.zero_le a)]
    split
    · rw [List.getElem?_eq_none]
      · rfl
      · have : ((List.range n).flatMap fun i => bytesLE ((s.linkStore bytes (a + 4 * i)).getD (s.mword .h (a + 4 * i)))).length
            = 4 * n := by
            rw [List.length_flatMap]
            simp [bytesLE, Nat.mul_comm]
        rw [this]
        have : x < a ∨ a + 4 * n ≤ x := by simpa using hx
        omega
    · rfl
  · rw [if_neg hc]
    cases b <;> rfl

end Sys2Proof.Machine
end

