-- ==== Sys2Proof/WellFormed.lean ====
section
/-! DEFINITION. Which commands can come about: the shapes the manual gives their operands. `exec` is total on every
command; a command that is not well formed is one no sender and no event of the manual can bring. -/

namespace Sys2Proof

/-- A master that writes registers (R21): the host link, the management bus, the Huwaind core. -/
def masterWrites : Master → Bool
  | .hostlink => true
  | .mgmt => true
  | .hkcore => true
  | _ => false

/-- Bytes of a bank (R326), by which a parity error is placed. -/
def bankBytes : Bank → Nat
  | .r => 32768
  | .l => 262144
  | .c => 131072
  | .h => 131072
  | .s => 4096
  | .nvm => 65536

/-- A bank word that exists. -/
def wordExists (w : Bank × Nat) : Bool := decide (w.2 < bankBytes w.1) && decide (w.2 % 4 = 0)

/-- Upsets in words that exist. -/
def upsWf (l : List Upset) : Bool := l.all fun u => wordExists (u.bank, u.addr)

/-- Other masters' writes of a cycle in which `m` writes too: by masters of the fabric (R21). -/
def alsoWf (m : Master) (l : List RegWrite) : Bool := l.all fun x => decide (x.m ≠ .none ∧ x.m ≠ m)

/-- A frame: no bytes after H3 where fewer than four header bytes came; the parity errors in words that exist, those of
`mends` in the link buffers (R326). -/
def FrameIn.wf (f : FrameIn) : Bool :=
  (!f.short || f.rest.isEmpty) && upsWf f.ups && alsoWf .hostlink f.also && decide f.mends.Nodup
    && f.mends.all fun a => decide (0x18000 ≤ a ∧ a < 0x1C800 ∧ a % 4 = 0)

/-- A measurement frame: at most 32 channels, at most 50 samples each, at most eight AUXT inputs, each channel whose
transition a SAFE meets once. -/
def MeasIn.wf (x : MeasIn) : Bool :=
  decide (x.chans.length ≤ 32) && x.chans.all (fun c => decide (c.samples.length ≤ 50)) && decide (x.leaf.length ≤ 50)
    && decide (x.auxt.length ≤ 8) && upsWf x.ups && decide (x.safes.map (·.1)).Nodup

/-- Samples that an event brings: each channel once, less than a frame of them. -/
def Fresh.wf (x : Fresh) : Bool :=
  decide (x.chans.map (·.1)).Nodup && x.chans.all (fun c => decide (c.2.length ≤ 50)) && decide (x.leaf.length ≤ 50)

/-- Stage WIPE tries the erase twice (R436). -/
def StartIn.wf (x : StartIn) : Bool := decide (x.eraseFail ≤ 2)

/-- A tag of 96 bytes (R396), and at most two tries at the challenge (R400). -/
def TagIn.wf (x : TagIn) : Bool :=
  (match x.data with
    | some d => decide (d.length = 96)
    | none => true) && decide (x.tries.length ≤ 2)

/-- A transaction: other masters' writes beside it, upsets in words that exist. -/
def MgmtTx.wf (t : MgmtTx) : Bool := upsWf t.ups && alsoWf .mgmt t.also

/-- Comparators that trip in one cycle, each named once. -/
def tripsWf (n : Chan) (t : Trip) (also : List (Chan × Trip)) : Bool := decide ((n, t) ∉ also) && decide also.Nodup

/-- Words handed to a port by one frame: 1 to 256. -/
def portWf (ws : List Word) : Bool := decide (1 ≤ ws.length ∧ ws.length ≤ 256)

/-- The checks of every command. -/
def Instr.wf : Instr → Bool
  | .rstcmd m _ => masterWrites m
  | .startup x => x.wf
  | .imgportBlock _ ws => portWf ws
  | .imgctrlRestart m => masterWrites m
  | .imgctrlEnd m _ ups => masterWrites m && upsWf ups
  | .bootwaitTimeout _ ups => upsWf ups
  | .poll f | .write f | .readReq f | .readFetch f | .writeFifo f | .readFifoReq f | .sync f | .reservedOp f => f.wf
  | .arm m _ | .start m _ | .stop m _ | .pause m _ | .resume m _ | .safe m _ | .clear m _ | .cfgWrite m _ _ =>
    masterWrites m
  | .frameEnd x => x.wf
  | .rangeSwitchDone _ x | .pulseLevelChange _ x | .dcirPulseEdge _ x | .dcirPulseEnd _ x | .dcirResult _ _ x
  | .dcirComplete _ x | .leafError x | .standinEnd x | .blendDone _ x => x.wf
  | .eisPointEnd _ x ups => x.wf && upsWf ups
  | .tripVmax n a => tripsWf n .vmax a
  | .tripVmin n a => tripsWf n .vmin a
  | .tripIchg n a => tripsWf n .ichg a
  | .tripIdis n a => tripsWf n .idis a
  | .tripTmax n a => tripsWf n .tmax a
  | .tripTmin n a => tripsWf n .tmin a
  | .tripQ n a => tripsWf n .q a
  | .tripSense n a => tripsWf n .sense a
  | .peakFault n a => tripsWf n .peakFault a
  | .swnode n a => tripsWf n .swnode a
  | .bootFault n a => tripsWf n .bootFault a
  | .rampAbort n a => tripsWf n .rampAbort a
  | .leafEnClear m => masterWrites m
  | .hresReq m v => masterWrites m && v.getLsbD 8
  | .hresCancel m v => masterWrites m && v.getLsbD 9
  | .eoi m _ | .softset m _ | .pendClear m _ _ _ | .gieWrite m _ | .prioWrite m _ _ | .maskWrite m _ _ => masterWrites m
  | .errorReport rs => !rs.isEmpty && rs.all fun r => !r.inj
  | .fsnow m v => masterWrites m && v.getLsbD 0
  | .fsexit m v => masterWrites m && v.getLsbD 1
  | .inject m v => masterWrites m && v.getLsbD 31
  | .captureRearm m _ _ | .errCapRearm m _ _ => masterWrites m
  | .lockOpen m _ v => masterWrites m && decide (v.extractLsb' 16 16 = 0x4F50)
  | .lockClose m _ v => masterWrites m && decide (v.extractLsb' 16 16 = 0x434C)
  | .hkGroupReload a ups => wordExists (.h, a) && upsWf ups
  | .marchGo m | .marchStop m => masterWrites m
  | .checkPassEnd _ ups | .mailboxDone _ ups | .hkRestartDone ups | .logSlotRebuild _ ups | .secureEraseDone ups => upsWf ups
  | .checkPort m _ ws _ => masterWrites m && portWf ws
  | .keyport m ws => masterWrites m && portWf ws
  | .lccmd m _ | .pairOverride m _ | .erase m | .prog m | .sealCmd m | .cfgchk m => masterWrites m
  | .timeLoad m lo hi => masterWrites m && (lo.isSome || hi.isSome)
  | .syncenWrite m _ => masterWrites m
  | .io24Edge _ raw => !raw.isEmpty
  | .pcfgWrite m _ _ | .ovlrst m _ _ | .saferel m _ | .reread m _ | .override m _ => masterWrites m
  | .fixtureSequence x => x.wf
  | .estopSet t => t.wf && decide (t.data.head? ≠ some 0x5A)
  | .estopClear t => t.wf && decide (t.data.head? ≠ some 0xA5)
  | .alertWrite t | .readReg t | .writeReg t | .writePort t => t.wf
  | .registerWrite w _ rs also _ => masterWrites w.m && alsoWf w.m also && rs.all fun r => !r.inj
  | _ => true

end Sys2Proof
end

