-- ==== Sys2Proof/Tests/Slice0.lean ====
section
/-! SUPPORT. Tests: ill-formed commands that the checks refuse, single steps against values worked out from the manual,
and for each obligation with hypotheses a state and operands that meet them, clause by clause, at the edges of their
ranges. -/

set_option Elab.async false

namespace Sys2Proof.Tests

open Sys2Proof Sys2Proof.Machine

/-! ### Small states -/

/-- A paired device that has reached READY, with a good fixture. -/
def rdy : State :=
  { State.reset with
      sys := { State.reset.sys with stage := 0x0A, listed := true }
      fix := { State.reset.fix with state := 2 } }

/-- The lock of block b opened by the host link. -/
def opened (b : Fin 53) (s : State) : State := s.modCom b fun c => { c with lockOpen := true, owner := 1 }

/-- Channel 5 in a STATE. -/
def inState (st : ChState) (s : State) : State := s.modSeq 5 fun q => { q with state := st }

/-- A step of a type, range HIGH. -/
def stepOf (typ : Nat) : Step :=
  ⟨7, #v[BitVec.ofNat 32 typ, 1000000#32, 2000000#32, 0, 0, 0, 0, 0], #v[0, 0, 0, 0], #v[0, 0, 0, 0], 0⟩

/-- Channel 5 runs a step. -/
def runs (typ : Nat) (s : State) : State :=
  s.modSeq 5 fun q => { q with state := .run, phase := .active, step := some (stepOf typ) }

/-- The power stage of channel 5. -/
def staged (f : Stage → Stage) (s : State) : State := s.modPs 5 f

/-- A frame that carries its check value; `ws`: payload. -/
def frame (s : State) (op : Nat) (tag : BitVec 5) (page off len : Byte) (ws : List Word) (fill : Nat) : FrameIn :=
  let f : FrameIn := ⟨tag, page, off, len, ws.flatMap bytesBE, false, false, false, false, false, false, false, 0, [], [], []⟩
  { f with rest := f.rest ++ natBE 2 (s.frameCrc op f).toNat ++ List.replicate fill 0 }

/-- HCS# is low and the field die serves. -/
def low : State := { rdy with link := { rdy.link with hcsLow := true } }

theorem settled_of (s : State) (h : (decide (s.hk.imgOpen = false) && decide (s.sys.rstReq = none)) = true) : Settled s := by
  simpa only [Settled, Bool.and_eq_true, decide_eq_true_eq] using h

theorem calm_of (s : State) (h : (!s.bench.buv && !bit (s.reg 0x10 0x01) 1 && (s.rx false).all Reaction.settle
    && (s.rx true).all Reaction.settle) = true) : Calm s := by
  simp only [Bool.and_eq_true, Bool.not_eq_true'] at h
  refine ⟨h.1.1.1, h.1.1.2, fun nested x hx => ?_⟩
  cases nested
  · simpa [hx] using h.1.2
  · simpa [hx] using h.2

theorem stored_of (s : State) (h : (Memory.wf s.banks && Regs.wf s.regs) = true) : Stored s := by
  simpa [Stored] using h

theorem gangs_of (s : State)
    (h : (allChans.all fun n => decide ((s.cell (s.leader n)).seq.state = (s.cell n).seq.state)) = true) : GangsShare s := by
  intro n
  have := List.all_eq_true.mp h n (by simp [allChans])
  simpa using this

theorem accepts_of (op : Nat) (f : FrameIn) (s : State)
    (h : (s.link.hostUp && s.link.hcsLow && !s.link.noAns && s.works dBarf && decide (s.firstError op f = none)) = true) :
    Accepts op f s := by
  simpa [Accepts, Serves, and_assoc] using h

/-! ### Well-formedness: one ill-formed command for each check -/

/-- The log engine writes no register (R21). -/
theorem test_wf_master : Instr.wf (.gieWrite .log 1) = false ∧ Instr.wf (.gieWrite .hostlink 1) = true := by decide

/-- A POLL that brings nothing. -/
def bare : FrameIn := ⟨0, 0, 0, 0, [], false, false, false, false, false, false, false, 0, [], [], []⟩

/-- Bytes after H3 of a frame of fewer than four bytes. -/
theorem test_wf_frame_short : Instr.wf (.poll { bare with rest := [1], short := true }) = false
    ∧ Instr.wf (.poll { bare with short := true }) = true := by decide

/-- A word of the link buffers named twice, one outside them, and a write of the frame's cycle by the host link itself. -/
theorem test_wf_frame_buffers : Instr.wf (.poll { bare with mends := [0x18000, 0x18000] }) = false
    ∧ Instr.wf (.poll { bare with mends := [0x17FFC] }) = false ∧ Instr.wf (.poll { bare with mends := [0x1C7FC] }) = true
    ∧ Instr.wf (.poll { bare with also := [⟨.hostlink, 0, 0, 0⟩] }) = false
    ∧ Instr.wf (.poll { bare with also := [⟨.log, 0, 0, 0⟩] }) = true := by decide

/-- An upset in a word outside its bank, and at no word address. -/
theorem test_wf_frame_word :
    Instr.wf (.poll { bare with ups := [⟨.r, 32768, 1, false⟩] }) = false
      ∧ wordExists (.r, 2) = false ∧ wordExists (.r, 32764) = true := by decide

/-- A measurement frame that brings nothing. -/
def meas : MeasIn := ⟨[], [], 0, 0, 0, 0, [], 0, 0, [], [], false, []⟩

/-- A channel that brings no sample. -/
def quiet : ChanIn := ⟨[], 0, 0, 0, 60, 60⟩

/-- 33 channels, 51 samples, 51 LEAF samples, nine AUXT inputs, a channel that SAFE meets twice. -/
theorem test_wf_meas :
    Instr.wf (.frameEnd { meas with chans := List.replicate 33 quiet }) = false
      ∧ Instr.wf (.frameEnd { meas with chans := [{ quiet with samples := List.replicate 51 ⟨0, 0, 0, 0⟩ }] }) = false
      ∧ Instr.wf (.frameEnd { meas with leaf := List.replicate 51 ⟨0, 0, 0⟩ }) = false
      ∧ Instr.wf (.frameEnd { meas with safes := [(3, 0), (3, 1)] }) = false
      ∧ Instr.wf (.frameEnd { meas with auxt := List.replicate 9 0 }) = false ∧ Instr.wf (.frameEnd meas) = true := by
  decide

/-- Three failed erases of two tries (R436). -/
theorem test_wf_start : Instr.wf (.startup ⟨0, 0, 0, 0, false, 0, 0, 3, []⟩) = false := by decide

/-- A tag of 95 bytes; three tries at the challenge. -/
theorem test_wf_tag : Instr.wf (.fixtureSequence ⟨some (List.replicate 95 0), [], none, []⟩) = false
    ∧ Instr.wf (.fixtureSequence ⟨none, List.replicate 3 ([], none), none, []⟩) = false := by decide

/-- A comparator named twice, in each position. -/
theorem test_wf_trips : Instr.wf (.tripVmax 0 [(0, .vmax)]) = false ∧ Instr.wf (.swnode 0 [(1, .vmin), (1, .vmin)]) = false
    ∧ Instr.wf (.tripTmin 0 [(0, .tmin)]) = false ∧ Instr.wf (.rampAbort 0 [(0, .vmax)]) = true
    ∧ Instr.wf (.tripVmax 0 [(1, .vmax)]) = true := by decide

/-- No word, and 257 words, for a port. -/
theorem test_wf_port : Instr.wf (.imgportBlock true []) = false
    ∧ Instr.wf (.keyport .hostlink (List.replicate 257 0)) = false ∧ Instr.wf (.checkPort .mgmt true [] 0) = false := by
  decide +kernel

/-- A channel named twice, and 51 samples, by an event inside a frame. -/
theorem test_wf_fresh : Instr.wf (.dcirResult 0 true ⟨[(3, []), (3, [])], []⟩) = false
    ∧ Instr.wf (.rangeSwitchDone 0 ⟨[(3, List.replicate 51 ⟨0, 0, 0, 0⟩)], []⟩) = false
    ∧ Instr.wf (.standinEnd ⟨[], List.replicate 51 ⟨0, 0, 0⟩⟩) = false ∧ Instr.wf (.leafError ⟨[(3, [])], []⟩) = true := by
  decide +kernel

/-- Command bits that the word of the row must carry. -/
theorem test_wf_bits : Instr.wf (.hresReq .mgmt 0) = false ∧ Instr.wf (.hresCancel .mgmt 0) = false
    ∧ Instr.wf (.fsnow .mgmt 2) = false ∧ Instr.wf (.fsexit .mgmt 1) = false ∧ Instr.wf (.inject .mgmt 0) = false
    ∧ Instr.wf (.lockOpen .mgmt 0 0x434C0000) = false ∧ Instr.wf (.lockClose .mgmt 0 0x4F500000) = false := by decide

/-- A transaction that nothing meets. -/
def tx (d : List Byte) (p : Option Byte) : MgmtTx := ⟨d, p, none, false, [], 0, []⟩

/-- No report; a report FCOL.INJECT made; no TIME word; no sample; a wrong ESTOP byte; a group at no word. -/
theorem test_wf_rest : Instr.wf (.errorReport []) = false
    ∧ Instr.wf (.errorReport [⟨0, .fatal, none, .none, .none, .read, true, 0, 0⟩]) = false
    ∧ Instr.wf (.timeLoad .mgmt none none) = false ∧ Instr.wf (.io24Edge 0 []) = false
    ∧ Instr.wf (.estopSet (tx [0x5A] none)) = false ∧ Instr.wf (.estopClear (tx [0xA5] none)) = false
    ∧ Instr.wf (.estopSet (tx [0x00] none)) = true
    ∧ Instr.wf (.hkGroupReload 3 []) = false ∧ Instr.wf (.checkPassEnd true [⟨.nvm, 65536, 0, false⟩]) = false := by decide

/-! ### Single steps

Expected values are worked out by hand from the rule each comment names. -/

/-- The state after a command. -/
def after (c : Instr) (s : State) : State :=
  match exec c s with
  | .next t => t
  | _ => s

/-- R13, R56: CFG of channel 5 takes RANGE and keeps its reserved bits 0. -/
theorem test_cfg_write :
    (after (.cfgWrite .hostlink 5 0xFFFFFFFF) rdy).cfg 5 = cfgFix 0x0050C000 (mix 0x0050C000 0xFFFFFFFF 0x03F3F333) := by
  decide +kernel

/-- R37: a 1 clears a STATUS bit, and a set of the same cycle wins (R292). -/
theorem test_status_w1c :
    (after (.registerWrite ⟨.hostlink, 0x0B, 2, 0x3⟩ 0x1 [] [] 0) (raise 11 0x7 rdy)).com[11].status = 0x5 := by decide +kernel

/-- R44 and log entry 10: word 1 of entry 0 lies at byte 4 of BANK-R, its low byte lowest. -/
theorem test_recipe_word :
    (after (.registerWrite ⟨.hostlink, 0x80, 1, 0x11223344⟩ 0 [] [] 0) rdy).byte .r 4 = 0x44
      ∧ (after (.registerWrite ⟨.hostlink, 0x80, 1, 0x11223344⟩ 0 [] [] 0) rdy).byte .r 7 = 0x11 := by decide +kernel

/-- R42: THRESH 0 is stored as 1, WINDOW 61,000 as 60,000. -/
theorem test_err_cnt :
    (after (.registerWrite ⟨.hostlink, 0x0B, 6, 61000⟩ 0 [] [] 0) rdy).readWord 0x0B 6 = 0x0001EA60 := by decide +kernel

/-- R283: a claim with GIE = 0 reads NONE. -/
theorem test_claim_none : (after (.claim []) rdy).irq.claimWord.toNat % 256 = 0xFF := by decide +kernel

/-- R279, R283: SOFT0 (ID 96) of priority 3 is served, and is then active at level 3. -/
theorem test_claim_soft :
    let s := after (.softset .hostlink 1) ((rdy.setReg 0x03 0x2C 3).setReg 0x03 0x01 1)
    (after (.claim []) s).irq.claimWord.toNat % 256 = 96 ∧ (after (.claim []) s).level = 3 := by decide +kernel

/-- R46, R48: OPEN with the key and the page of BENCH opens its lock for the writer. -/
theorem test_lock_open : (after (.lockOpen .mgmt 11 0x4F500B00) rdy).openFor 11 .mgmt = true
    ∧ (after (.lockOpen .mgmt 11 0x4F500C00) rdy).com[11].badKey = 1 := by decide +kernel

/-- R93: VMAX puts a running channel into SAFE. -/
theorem test_trip_vmax : ((after (.tripVmax 5 []) (runs 1 rdy)).cell 5).seq.state = .safe := by decide +kernel

/-- R93: SWNODE of a switching channel stops it at once, with FAULT. -/
theorem test_trip_swnode :
    let s := staged (fun p => { p with switching := true }) (runs 1 rdy)
    ((after (.swnode 5 []) s).cell 5).seq.state = .fault ∧ ((after (.swnode 5 []) s).cell 5).ps.switching = false := by
  decide +kernel

/-- R234, R235: with N = 1,000 BDEM is high for N internal cycles in RUN, and held low in DOZE and before READY. -/
theorem test_bdem_high :
    let s : State := { rdy with bench := { rdy.bench with n := 1000 } }
    s.bdemHigh = 1000 ∧ { s with pwr := { s.pwr with state := .doze } }.bdemHigh = 0
      ∧ { s with sys := { s.sys with stage := 9 } }.bdemHigh = 0 := by decide +kernel

/-- R31: with VDDA lost the host side shows INT# released and FAULT# low. -/
theorem test_pins_refresh : (after (.fieldSupplyLoss true) rdy).pinInt = none
    ∧ rdy.pinFault = none ∧ (after (.fieldSupplyLoss true) rdy).pinFault = some false := by decide +kernel

/-- FCOL.CTRL: FSNOW takes FAIL_STOP with cause 3. -/
theorem test_fsnow : (after (.fsnow .hostlink 1) (opened 4 rdy)).fcol.fsCause = 3 := by decide +kernel

/-- R376: both TIME words of one commit, bit 0 of the fraction taken as 0. -/
theorem test_time_load : (after (.timeLoad .hostlink (some 5) (some 0x00010003)) rdy).cal = (2 ^ 32 + 5) * 65536 + 2 := by
  decide +kernel

/-- R375: with TRIM 0, 2^15 crystal periods are one second. -/
theorem test_calendar_second : (after (.calendarTick 32768) rdy).cal = 65536 := by decide +kernel

/-- The PEC of the management bus: CRC-8, polynomial 0x07, initial value 0; of the characters "1" to "9" it is 0xF4. -/
theorem test_pec : pec [0x31, 0x32, 0x33, 0x34, 0x35, 0x36, 0x37, 0x38, 0x39] = 0xF4 := by decide +kernel

/-- R228 at the reset values: V_THROTTLE + V_THRBAND = 14.0 V, where k_v is 0. -/
theorem test_throttle : (after (.voltageThrottle 14000000) rdy).bench.kv = 0 := by decide +kernel

/-- R234: zero demand drives N = 1,000. -/
theorem test_bdem : ((after .bdemUpdate { rdy with bench := { rdy.bench with vbUse := rdy.benchI 0x22 } }).bench.n) = 1000 := by
  decide +kernel

/-- R112: an NTC of 10 kΩ and B = 3,435 K reads 25.00 °C at 10,000.0 Ω and 50.00 °C at 4,101.2 Ω. -/
theorem test_ntc : (Sensor.ntc 1000 3435).temp 100000 = 2500 ∧ roundRat ((Sensor.ntc 1000 3435).temp 41012) = 5000 := by
  decide +kernel

/-- R112 with IEC 60751: a PT1000 reads 0 °C at 1,000.0 Ω, and 100.01 °C at 1,385.1 Ω. -/
theorem test_pt1000 : Sensor.pt1000.temp 10000 = 0 ∧ roundRat (Sensor.pt1000.temp 13851) = 10001 := by decide +kernel

/-- R201: of the samples 0, 1, 2, 3, 4 a bin holds (0 + 1 + 0.5 · 2) / 2.5 = 0.8, the next (0.5 · 2 + 3 + 4) / 2.5 = 3.2. -/
theorem test_bins : binAt (fun k => (k : Int)) 0 = 1 ∧ binAt (fun k => (k : Int)) 1 = 3 := by decide +kernel

/-- R145, R167: the end of a DCIR step's second base time ends no step inside the frame. -/
theorem test_dcir_complete :
    ((after (.dcirComplete 5 ⟨[], []⟩)
      ((runs 7 rdy).modCell 5 fun c => { c with dcir := { c.dcir with phase := 3 } })).cell 5).seq.state = .run := by
  decide +kernel

/-- R417: the stop latch sets without a PEC. -/
theorem test_estop_set :
    (after (.estopSet (tx [0xA5] none)) rdy).mgmt.stop = true := by decide +kernel

/-- The double of the base point of P-256, from the published multiples of that point. -/
theorem test_p256 : mulPoint 2 (some p256G) =
    some (0x7CF27B188D034F7E8A52380304B51AC3C08969E277F21B35A60B48FC47669978,
      0x07775510DB8ED040293D9AC69F7430DBBA7DADE63CE982299E04B79D227873D1) := by decide +kernel

/-- R310: trips of channels 5 and 9 in one cycle are one reaction, of CH_SAFE on both. -/
theorem test_trips_one_reaction :
    let s := (runs 1 rdy).modSeq 9 fun q => { q with state := .run }
    let t := after (.tripVmax 5 [(9, .vmax)]) s
    t.fcol.rxA.isSome = true ∧ t.fcol.rxB = none ∧ (t.cell 9).seq.state = .safe := by decide +kernel

/-- R417: a PEC that does not match sets PECERR, also where a byte follows it. -/
theorem test_pec_mismatch : bit (after (.alertWrite (tx [1, 2, 0, 9] none)) rdy).com[6].status 1 = true
    ∧ bit (after (.alertWrite (tx [1, 2] (some 0))) rdy).com[6].status 1 = true := by decide +kernel

/-- R292: two masters clear one bit in the cycle that sets it again, which is one lost clear. -/
theorem test_lost_clear_once :
    (after (.registerWrite ⟨.hostlink, 0x0B, 2, 1⟩ 1 [] [⟨.hkcore, 0x0B, 2, 1⟩] 0) rdy).com[11].lostClr = 1 := by decide +kernel

/-- R224: before the first VB no import is held back. -/
theorem test_uvw_before_first : rdy.uvwLow = false ∧ rdy.bench.vbUse = none := by decide +kernel

/-- R430: the alert response address is not acknowledged while ALERT# is released. -/
theorem test_alert_released :
    (after (.alertResponse true none) { rdy with mgmt := { rdy.mgmt with ack := true, out := [3] } }).mgmt.ack = false := by
  decide +kernel

/-! ### Witnesses: states and operands that meet the hypotheses of each obligation, clause by clause -/

theorem witness_StepRunsFront : ({ rdy with pending := [.aliveToggle, .bdemUpdate] } : State).pending = [.aliveToggle, .bdemUpdate]
    ∧ rdy.pending = [] := ⟨rfl, rfl⟩

/-- A state whose front command writes the last word of the recipe table. -/
def writing : State := { rdy with pending := [.registerWrite ⟨.hostlink, 0x9F, 0xFF, 1⟩ 0 [] [] 0] }

theorem witness_StepsKeepStores : ∃ t, Stored writing ∧ step writing = .next t :=
  ⟨_, stored_of _ (by decide +kernel), rfl⟩

/-- Seven entries on the stack, and a claim in front. -/
def claiming : State :=
  { rdy with irq := { rdy.irq with stack := (List.range 7).map fun i => ⟨Fin.ofNat 128 i, 1⟩ }, pending := [.claim []] }

theorem witness_StepsKeepStack : ∃ t, StackOk claiming ∧ step claiming = .next t :=
  ⟨_, And.intro (by decide) (by decide), rfl⟩

theorem witness_CommandsLeaveQueue : ∃ t, exec .aliveToggle writing = .next t := ⟨_, rfl⟩

theorem witness_PinResets : (∃ k, Instr.por false = .por k) ∧ ∃ ns, Instr.resetPin 1000 = .resetPin ns ∧ 1000 ≤ ns
    ∧ rdy.pwr.state ≠ .off :=
  ⟨⟨false, rfl⟩, 1000, rfl, by decide, by decide⟩

theorem witness_ResetKeepsAon : rdy.pwr.state ≠ .off ∧ (199 : Nat) < 200 ∧ Calm rdy
    ∧ (Instr.resetPin 1000 = .resetPin 1000 ∧ 1000 ≤ 1000 ∧ rdy.pwr.state ≠ .off ∨ Instr.resetPin 1000 = .por true)
    ∧ (Instr.por true = .resetPin 1000 ∧ 1000 ≤ 1000 ∧ rdy.pwr.state ≠ .off ∨ Instr.por true = .por true) := by
  and_intros <;> first
    | exact settled_of _ (by decide +kernel) | exact calm_of _ (by decide +kernel) | exact stored_of _ (by decide +kernel)
    | exact gangs_of _ (by decide +kernel) | exact accepts_of _ _ _ (by decide +kernel) | decide +kernel

/-- A SAFE ramp runs on channel 5. -/
def ramping : State := staged (fun p => { p with switching := true, ramp := true }) (inState .safe rdy)

/-- Channel 5 runs and conducts. -/
def conducting : State := staged (fun p => { p with switching := true }) (runs 1 rdy)

/-- The device is in NAP, with SYS open to the host link. -/
def napping : State := { opened 0 rdy with pwr := { rdy.pwr with state := .nap } }

theorem witness_SoftwareResets : napping.acts .hostlink = true ∧ Settled napping ∧ Calm napping
    ∧ napping.openFor bSys .hostlink = true ∧ napping.pwr.state = .nap ∧ (opened 0 ramping).pwr.state ≠ .nap
    ∧ (opened 0 conducting).pwr.state ≠ .nap ∧ (opened 0 rdy).acts .hostlink = true ∧ (opened 0 ramping).acts .hostlink = true
    ∧ (opened 0 conducting).acts .hostlink = true ∧ Settled (opened 0 conducting) ∧ Calm (opened 0 conducting)
    ∧ (opened 0 conducting).openFor bSys .hostlink = true ∧ GangsShare (opened 0 conducting)
    ∧ ((opened 0 conducting).cell 5).ps.conducts = true ∧ ((opened 0 conducting).cell 5).seq.state ≠ .safe
    ∧ ((opened 0 conducting).cell 5).seq.state ≠ .fault ∧ rdy.acts .hostlink = true ∧ Settled (opened 0 rdy)
    ∧ Calm (opened 0 rdy) ∧ fld 0x52530000 16 16 = 0x5253
    ∧ (opened 0 rdy).openFor bSys .hostlink = true ∧ (opened 0 rdy).anyRamp = false
    ∧ (∀ n : Chan, ((opened 0 rdy).cell n).ps.conducts = false) ∧ Settled (opened 0 ramping) ∧ Calm (opened 0 ramping)
    ∧ (opened 0 ramping).openFor bSys .hostlink = true ∧ (opened 0 ramping).anyRamp = true ∧ GangsShare (opened 0 ramping)
    ∧ Settled rdy ∧ Calm rdy ∧ rdy.openFor bSys .hostlink = false := by
  and_intros <;> first
    | exact settled_of _ (by decide +kernel) | exact calm_of _ (by decide +kernel) | exact stored_of _ (by decide +kernel)
    | exact gangs_of _ (by decide +kernel) | exact accepts_of _ _ _ (by decide +kernel) | decide +kernel

/-- Start-up has reached DOMAINS, with the fixture port enabled. -/
def domains : State := ({ State.reset with sys := { State.reset.sys with stage := 0x09 } } : State).setReg 0x07 0x01 1

/-- An image of no words, as BANK-H and the patch partition hold one. -/
def emptyImage : List Word := [0x48555749, 0, 5, crc32 [] 0]
/-- The patch partition holds an image. -/
def patched (ws : List Word) : State := State.reset.putWords .nvm 0x3000 ws

theorem witness_StartupRuns : State.reset.sys.stage = 0 ∧ State.reset.pwr.state ≠ .off
    ∧ (⟨15, 3, 8, 2, true, 0, 0, 0, []⟩ : StartIn).testf = true ∧ (⟨0, 0, 0, 0, false, 7, 0, 0, []⟩ : StartIn).testf = false
    ∧ State.reset.sec.nvpend = false ∧ (⟨0, 0, 0, 0, false, 7, 0, 0, []⟩ : StartIn).marchFail.getLsbD 3 = false
    ∧ (⟨0, 0, 0, 0, false, 7, 0, 0, []⟩ : StartIn).domFail = 0 ∧ domains.sys.stage = 0x09 ∧ Calm domains ∧ domains.fixEn = true
    ∧ domains.fix.running = none ∧ (∀ w ∈ State.reset.banks.bad, w.1 ≠ .nvm) ∧ State.reset.patchBlank = true
    ∧ (∀ w ∈ (patched emptyImage).banks.bad, w.1 ≠ .nvm) ∧ (patched emptyImage).sec.nvpend = false
    ∧ ((patched emptyImage).patchBlank || !(patched emptyImage).patchValid || (patched emptyImage).bootHold
        || (patched emptyImage).sys.winReq) = false
    ∧ (patched [0]).patchBlank = false ∧ (patched [0]).patchValid = false := by
  and_intros <;> first
    | exact settled_of _ (by decide +kernel) | exact calm_of _ (by decide +kernel) | exact stored_of _ (by decide +kernel)
    | exact gangs_of _ (by decide +kernel) | exact accepts_of _ _ _ (by decide +kernel) | decide +kernel

theorem block_end (l : List Word) (x : Word) (h : l.length = 255) : (l ++ [x])[255]? = some x ∧ (l ++ [x]).take 255 = l := by
  constructor
  · rw [← h]; simp
  · rw [← h]; simp

/-- 255 words and their check value under sequence number k. -/
def goodBlock (k : Nat) : List Word := List.replicate 255 0 ++ [crc32 (List.replicate 255 0) (BitVec.ofNat 32 k)]

/-- The boot window is open at block k, with blocks for check unit 1. -/
def window (k : Nat) (x : List (Bool × List Word)) : State :=
  { rdy with hk := { rdy.hk with imgOpen := true, nextBlk := k, blocks := x }, sys := { rdy.sys with bootWait := 1 } }

theorem witness_ImageBlocks :
    ((window 95 [(true, goodBlock 95)]).hk.imgOpen = true ∧ (window 95 [(true, goodBlock 95)]).hk.imgEnded = false
      ∧ (window 95 [(true, goodBlock 95)]).sys.rstReq = none ∧ Calm (window 95 [(true, goodBlock 95)])
      ∧ (window 95 [(true, goodBlock 95)]).hk.blocks = (true, goodBlock 95) :: []
      ∧ Memory.wf (window 95 [(true, goodBlock 95)]).banks = true
      ∧ (window 95 [(true, goodBlock 95)]).hk.nextBlk < 96
      ∧ (goodBlock 95)[255]? = some (crc32 ((goodBlock 95).take 255) (BitVec.ofNat 32 95)))
      ∧ ((window 95 []).acts .hostlink = true ∧ (window 95 []).acts .mgmt = true)
      ∧ (window 96 [(true, [])]).hk.blocks = (true, []) :: [] ∧ ¬ (window 96 [(true, [])]).hk.nextBlk < 96 := by
  refine ⟨⟨rfl, rfl, rfl, calm_of _ (by decide +kernel), rfl, by decide, by decide, ?_⟩, by decide +kernel, rfl, by decide⟩
  have h := block_end (List.replicate 255 0) (crc32 (List.replicate 255 0) (BitVec.ofNat 32 95)) List.length_replicate
  unfold goodBlock
  rw [h.2, h.1]

theorem witness_BootWindowCloses : (window 0 []).acts .hostlink = true ∧ (window 0 []).hk.imgOpen = true
    ∧ (window 0 []).hk.imgEnded = false
    ∧ (window 0 []).sys.rstReq = none ∧ (window 0 []).hk.nextBlk = 0 ∧ (window 0 []).sys.bootWait ≠ 0
    ∧ (window 0 []).mword .h 0 ≠ 0x48555749
    ∧ (let s := (window 1 []).putWords .h 0 emptyImage
       s.acts .mgmt = true ∧ s.hk.imgOpen = true ∧ s.hk.imgEnded = false ∧ s.sys.rstReq = none ∧ s.mword .h 0 = 0x48555749
         ∧ 4 + (s.mword .h 4).toNat ≤ 255 * s.hk.nextBlk
         ∧ s.mword .h 12 = crc32 (s.mwords .h 16 (s.mword .h 4).toNat) (s.mword .h 4)) := by decide +kernel

theorem witness_FrameBegins : rdy.link.hostUp = true ∧ rdy.link.hcsLow = false ∧ rdy.serves = true := by decide +kernel

/-- A buffer whose first response is ready and whose second is not. -/
def buffered : State :=
  { low with link := { low.link with buf := [⟨3, 0, 1, 0, false, true, [5]⟩, ⟨4, 0, 1, 0, false, false, [6]⟩] } }

/-- A frame of operation 6, a marked frame, a frame with one byte missing; a fetch of a tag that no response has, and a read
under a tag in use. -/
theorem witness_FramesRejected : Serves low ∧ Stored low ∧ bit (low.reg 0x10 0x01) 1 = false ∧ Serves buffered ∧ Stored buffered
    ∧ bit (buffered.reg 0x10 0x01) 1 = false ∧ low.firstError 6 (frame low 6 0 0 0 0 [] 0) = some 7
    ∧ low.firstError 0 { frame low 0 0 0 0 0 [] 0 with marked := true } = some 8
    ∧ low.firstError 0 { frame low 0 0 0 0 0 [] 0 with rest := [0] } = some 1
    ∧ low.firstError 1 (frame low 1 0 0x80 0xFF 1 [0, 0] 0) = some 3 ∧ low.firstError 3 (frame low 3 9 0 0 0 [] 8) = none
    ∧ (releaseHeld low).lateError 3 (frame low 3 9 0 0 0 [] 8) (low.answer 9) = some 5
    ∧ low.redelivers 3 (low.answer 9) = false ∧ buffered.firstError 2 (frame buffered 2 3 0 0 0 [] 0) = none
    ∧ (releaseHeld buffered).lateError 2 (frame buffered 2 3 0 0 0 [] 0) (buffered.answer 3) = some 6 := by
  and_intros <;> first | exact stored_of _ (by decide +kernel) | decide +kernel

theorem witness_PollAndSync : Accepts 0 (frame low 0 5 0 0 0 [] 0) low ∧ Stored low ∧ Calm low
    ∧ (frame low 0 5 0 0 0 [] 0).mends = [] := by
  and_intros <;> first
    | exact settled_of _ (by decide +kernel) | exact calm_of _ (by decide +kernel) | exact stored_of _ (by decide +kernel)
    | exact gangs_of _ (by decide +kernel) | exact accepts_of _ _ _ (by decide +kernel) | decide +kernel

/-- The last word of the recipe table, alone and as the second of two. -/
theorem witness_WritesCommit : Accepts 1 (frame low 1 0 0x9F 0xFF 0 [3] 0) low
    ∧ Accepts 1 (frame low 1 0 0x9F 0xFE 1 [3, 4] 0) low ∧ Calm low ∧ Settled low ∧ Stored low ∧ isRecipe 0x9F = true
    ∧ isRecipe 0x80 = true ∧ isRecipe 0xA0 = false ∧ (frame low 1 0 0x9F 0xFF 0 [3] 0).mends = []
    ∧ (frame low 1 0 0x9F 0xFF 0 [3] 0).also = [] := by
  and_intros <;> first
    | exact settled_of _ (by decide +kernel) | exact calm_of _ (by decide +kernel) | exact stored_of _ (by decide +kernel)
    | exact gangs_of _ (by decide +kernel) | exact accepts_of _ _ _ (by decide +kernel) | decide +kernel

theorem witness_WritesCommit_fifo : Accepts 4 (frame low 4 0 0x80 0 1 [3, 4] 0) low ∧ Calm low ∧ Settled low ∧ Stored low
    ∧ isRecipe (frame low 4 0 0x80 0 1 [3, 4] 0).page = true ∧ (frame low 4 0 0x80 0 1 [3, 4] 0).mends = []
    ∧ (frame low 4 0 0x80 0 1 [3, 4] 0).also = [] := by
  and_intros <;> first
    | exact settled_of _ (by decide +kernel) | exact calm_of _ (by decide +kernel) | exact stored_of _ (by decide +kernel)
    | exact gangs_of _ (by decide +kernel) | exact accepts_of _ _ _ (by decide +kernel) | decide +kernel

/-- The last word of the recipe table, alone and 256 times; COUNT and LASTFRM of LINK, CLAIM, a page that does not exist. -/
theorem witness_ReadsQueue : Stored low ∧ Calm low ∧ (frame low 2 3 0x9F 0xFF 0 [] 0).ups = []
    ∧ (frame low 2 3 0x9F 0xFF 0 [] 0).mends = []
    ∧ low.banks.bad = []
    ∧ isRecipe (frame low 2 3 0x9F 0xFF 0 [] 0).page = true
    ∧ Accepts 2 (frame low 2 3 5 8 7 [] 0) low ∧ (releaseHeld low).lateError 2 (frame low 2 3 5 8 7 [] 0) .err = none
    ∧ Accepts 2 (frame low 2 3 3 8 0 [] 0) low ∧ (releaseHeld low).lateError 2 (frame low 2 3 3 8 0 [] 0) .err = none
    ∧ Accepts 5 (frame low 5 3 3 8 9 [] 0) low ∧ (releaseHeld low).lateError 2 (frame low 5 3 3 8 9 [] 0) .err = none
    ∧ Accepts 2 (frame low 2 3 0x41 0 0 [] 0) low ∧ (releaseHeld low).lateError 2 (frame low 2 3 0x41 0 0 [] 0) .err = none
    ∧ isRecipe 0x41 = false ∧ pageBlk 0x41 = none
    ∧ (releaseHeld low).lateError 2 (frame low 2 3 0x9F 0xFF 0 [] 0) .err = none
    ∧ Accepts 2 (frame low 2 3 0x9F 0xFF 0 [] 0) low
    ∧ (releaseHeld low).lateError 2 (frame low 5 3 0x80 0xFF 255 [] 0) .err = none
    ∧ Accepts 5 (frame low 5 3 0x80 0xFF 255 [] 0) low := by
  and_intros <;> first
    | exact settled_of _ (by decide +kernel) | exact calm_of _ (by decide +kernel) | exact stored_of _ (by decide +kernel)
    | exact gangs_of _ (by decide +kernel) | exact accepts_of _ _ _ (by decide +kernel) | decide +kernel

theorem witness_FetchDelivers : Accepts 3 (frame buffered 3 3 0 0 0 [] 8) buffered
    ∧ Accepts 3 { frame buffered 3 3 0 0 0 [] 8 with respFail := true } buffered ∧ (∀ w ∈ buffered.banks.bad, w.1 ≠ .h)
    ∧ buffered.answer 3 = .response ⟨3, 0, 1, 0, false, true, [5]⟩
    ∧ buffered.works dBarf = true ∧ buffered.link.buf = [⟨3, 0, 1, 0, false, true, [5]⟩] ++ ⟨4, 0, 1, 0, false, false, [6]⟩ :: []
    ∧ (∀ x ∈ [(⟨3, 0, 1, 0, false, true, [5]⟩ : Response)], x.ready = true) := by
  and_intros <;> first
    | exact settled_of _ (by decide +kernel) | exact calm_of _ (by decide +kernel) | exact stored_of _ (by decide +kernel)
    | exact gangs_of _ (by decide +kernel) | exact accepts_of _ _ _ (by decide +kernel) | decide +kernel

theorem witness_PollAndSync_sync : Accepts 7 (frame low 7 0 0 0 0 [] 0) low := accepts_of _ _ _ (by decide +kernel)

/-- Tracking, with or without alignment. -/
def tracking (a q f : Bool) : State :=
  { rdy.setReg 0x01 0x01 1 with clk := { rdy.clk with aligned := a, acquiring := q, freeRun := f, slips := 2 } }

theorem witness_SyncTracks : (tracking false true false).tracks = true ∧ (tracking false true false).clk.aligned = false
    ∧ (tracking false true false).clk.acquiring = true ∧ (tracking true false false).tracks = true
    ∧ (tracking true false false).clk.aligned = true ∧ (2000 : Int).natAbs ≤ 2000 ∧ 2000 < (-2001 : Int).natAbs
    ∧ (tracking true false false).clk.freeRun = false := by decide +kernel

theorem witness_EstopSafes : rdy.estop = false ∧ GangsShare rdy ∧ Calm rdy ∧ (rdy.setReg 0x08 0x0F 0x80000000).isOut 7 = true := by
  and_intros <;> first
    | exact settled_of _ (by decide +kernel) | exact calm_of _ (by decide +kernel) | exact stored_of _ (by decide +kernel)
    | exact gangs_of _ (by decide +kernel) | exact accepts_of _ _ _ (by decide +kernel) | decide +kernel

theorem witness_LevelChannels : (levelOf .sync rdy).lost = false ∧ (levelOf .hgp1 rdy).lost = false := by decide

theorem witness_SuppliesOfDies : rdy.sup.vddaLow = false ∧ rdy.link.hostUp = true ∧ rdy.link.fieldRefresh = true ∧ Calm rdy
    ∧ (runs 1 rdy).sup.vddpUv = false ∧ (runs 1 rdy).sys.rstReq = none ∧ (∀ n : Chan, (runs 1 rdy).formed n = false)
    ∧ ((runs 1 rdy).cell 5).seq.state.live = true ∧ ((runs 1 rdy).cell 5).ps.ramp = false := by
  and_intros <;> first
    | exact settled_of _ (by decide +kernel) | exact calm_of _ (by decide +kernel) | exact stored_of _ (by decide +kernel)
    | exact gangs_of _ (by decide +kernel) | exact accepts_of _ _ _ (by decide +kernel) | decide +kernel

/-! ### Witnesses: channels -/

theorem witness_ArmAndStart : rdy.acts .hostlink = true ∧ Settled rdy ∧ Calm rdy ∧ rdy.sup.vddpUv = false
    ∧ (rdy.cell 5).seq.state = .idle
    ∧ rdy.startChecks 5 false = none ∧ rdy.startChecks 5 true = none ∧ ((inState .armed rdy).cell 5).seq.state = .armed
    ∧ (inState .armed rdy).startChecks 5 true = none ∧ ((inState .done rdy).cell 5).seq.state = .done
    ∧ (inState .done rdy).startChecks 31 true = none := by
  and_intros <;> first
    | exact settled_of _ (by decide +kernel) | exact calm_of _ (by decide +kernel) | exact stored_of _ (by decide +kernel)
    | exact gangs_of _ (by decide +kernel) | exact accepts_of _ _ _ (by decide +kernel) | decide +kernel

/-- Channels 4 and 5 form a gang. -/
def gang : State := (rdy.setReg 0x24 0x08 0x0050C100).setReg 0x25 0x08 0x0050C100

/-- Code 2: the channel is disabled. Code 10, the last: its start entry lies outside its window. CLEAR: code 1 for a state and
for a ramp, then 2, 3 and 5. The other commands: a state that takes none of them, and a gang's member in each that does. -/
theorem witness_RefusedCommands : rdy.acts .mgmt = true ∧ gang.acts .mgmt = true ∧ Settled gang ∧ Settled rdy ∧ Calm rdy
    ∧ (rdy.setReg 0x25 0x01 0).startChecks 5 true = some 2
    ∧ (rdy.setReg 0x25 0x2D 0x03FF0001).startChecks 5 true = some 10 ∧ (rdy.cell 5).seq.state = .idle
    ∧ (rdy.setReg 0x25 0x01 0).startChecks 5 false = some 2 ∧ ((inState .hold rdy).cell 5).seq.state.live = true
    ∧ ramping.ramping 5 = true ∧ (rdy.cell 5).seq.state.live = false ∧ rdy.ramping 5 = false
    ∧ ({ rdy with fcol := { rdy.fcol with failStop := true } } : State).fcol.failStop = true ∧ rdy.fcol.failStop = false
    ∧ rdy.member 5 = false ∧ gang.member 5 = true ∧ Calm gang
    ∧ (∀ st ∈ [ChState.armed, .run, .hold], ((inState st gang).cell 5).seq.state = st ∧ (inState st gang).member 5 = true)
    ∧ Settled (inState .hold gang) ∧ Calm (inState .hold gang)
    ∧ (∀ st ∈ [ChState.run, .hold, .safe, .fault, .done], ((inState st rdy).cell 5).seq.state = st)
    ∧ Settled (inState .safe rdy) ∧ Calm (inState .safe rdy)
    ∧ ({ rdy with mgmt := { rdy.mgmt with stop := true } } : State).estopBlocks = true := by
  and_intros <;> first
    | exact settled_of _ (by decide +kernel) | exact calm_of _ (by decide +kernel) | exact stored_of _ (by decide +kernel)
    | exact gangs_of _ (by decide +kernel) | exact accepts_of _ _ _ (by decide +kernel) | decide +kernel

theorem witness_StopPauseResume : (runs 1 rdy).acts .hostlink = true ∧ (inState .hold rdy).acts .hostlink = true
    ∧ Settled (runs 1 rdy) ∧ Calm (runs 1 rdy) ∧ (runs 1 rdy).member 5 = false
    ∧ (runs 1 rdy).sup.vddpUv = false ∧ ((runs 1 rdy).cell 5).seq.state = .run ∧ ((runs 1 rdy).step 5).isSome = true
    ∧ ((inState .armed rdy).cell 5).seq.state = .armed ∧ (inState .armed rdy).member 5 = false
    ∧ ((inState .hold rdy).cell 5).seq.state = .hold ∧ ((inState .hold rdy).cell 5).seq.next = .none
    ∧ (∀ e, Next.none ≠ Next.stale e) := by
  and_intros <;> first
    | exact settled_of _ (by decide +kernel) | exact calm_of _ (by decide +kernel) | exact stored_of _ (by decide +kernel)
    | exact gangs_of _ (by decide +kernel) | exact accepts_of _ _ _ (by decide +kernel) | decide +kernel

theorem witness_SafeAndClear : rdy.acts .hostlink = true ∧ Settled rdy ∧ Calm rdy ∧ gang.member 4 = false ∧ gang.leader 5 = 4
    ∧ rdy.member 5 = false ∧ (rdy.cell 5).seq.state ≠ .safe
    ∧ (rdy.cell 5).seq.state ≠ .fault ∧ ((staged (fun p => { p with switching := true }) rdy).cell 5).ps.conducts = true
    ∧ (∀ st ∈ [ChState.safe, .fault, .done, .idle], ((inState st rdy).cell 5).seq.state = st) ∧ rdy.ramping 5 = false
    ∧ rdy.fcol.failStop = false ∧ rdy.estopBlocks = false := by
  and_intros <;> first
    | exact settled_of _ (by decide +kernel) | exact calm_of _ (by decide +kernel) | exact stored_of _ (by decide +kernel)
    | exact gangs_of _ (by decide +kernel) | exact accepts_of _ _ _ (by decide +kernel) | decide +kernel

theorem witness_CfgAndLeafDrawer_leaf : Settled rdy ∧ Calm rdy
    ∧ Instr.cfgWrite .mgmt 32 7 ∈ [Instr.arm .mgmt 32, .start .mgmt 32, .cfgWrite .mgmt 32 7] := by
  and_intros <;> first
    | exact settled_of _ (by decide +kernel) | exact calm_of _ (by decide +kernel) | exact stored_of _ (by decide +kernel)
    | exact gangs_of _ (by decide +kernel) | exact accepts_of _ _ _ (by decide +kernel) | decide +kernel

theorem witness_ChannelCommandFrame : ∃ t, Settled rdy ∧ Calm rdy
    ∧ Instr.clear .mgmt 5 ∈ [Instr.arm .mgmt 5, .start .mgmt 5, .stop .mgmt 5, .pause .mgmt 5, .resume .mgmt 5, .safe .mgmt 5,
      .clear .mgmt 5]
    ∧ exec (.clear .mgmt 5) rdy = .next t :=
  ⟨_, settled_of _ (by decide +kernel), calm_of _ (by decide +kernel), by decide, rfl⟩

theorem witness_CfgAndLeafDrawer : rdy.acts .hostlink = true ∧ Settled rdy ∧ Calm rdy ∧ Stored rdy
    ∧ (∀ st ∈ [ChState.idle, .safe, .fault, .done], ((inState st rdy).cell 5).seq.state.live = false)
    ∧ (∀ st ∈ [ChState.armed, .run, .hold], ((inState st rdy).cell 5).seq.state.live = true) := by
  and_intros <;> first
    | exact settled_of _ (by decide +kernel) | exact calm_of _ (by decide +kernel) | exact stored_of _ (by decide +kernel)
    | exact gangs_of _ (by decide +kernel) | exact accepts_of _ _ _ (by decide +kernel) | decide +kernel

/-- The log runs, with a formed record of channel 3. -/
def logging : State :=
  { (rdy.setReg 0x0E 0x01 1).setReg 0x0E 0x0C 100 with log := { rdy.log with pending := [⟨3, #v[0, 0, 0, 0, 0, 0, 0, 0]⟩] } }

theorem witness_FrameEndAdvances : rdy.ready = true ∧ rdy.sys.rstReq = none ∧ State.reset.sys.rstReq = none
    ∧ rdy.asleep = false ∧ State.reset.ready = false ∧ Calm State.reset
    ∧ ({ rdy with pwr := { rdy.pwr with state := .doze } } : State).asleep = true
    ∧ ({ rdy with log := { rdy.log with pending := [⟨3, #v[0, 0, 0, 0, 0, 0, 0, 0]⟩] } } : State).log.pending
      = ⟨3, #v[0, 0, 0, 0, 0, 0, 0, 0]⟩ :: []
    ∧ bit (logging.reg 0x0E 0x01) 0 = true ∧ Stored logging ∧ logging.log.pending = ⟨3, #v[0, 0, 0, 0, 0, 0, 0, 0]⟩ :: []
    ∧ logging.fill < 8192 ∧ logging.unreadOf 3 < logging.logQuota
    ∧ (logging.setReg 0x0E 0x0C 0).logQuota ≤ (logging.setReg 0x0E 0x0C 0).unreadOf 3 := by
  and_intros <;> first
    | exact settled_of _ (by decide +kernel) | exact calm_of _ (by decide +kernel) | exact stored_of _ (by decide +kernel)
    | exact gangs_of _ (by decide +kernel) | exact accepts_of _ _ _ (by decide +kernel) | decide +kernel

/-- Channel 5 runs a PROOF step of entry 7 whose word 3 always fires, with ACTION END. -/
def endsNow : State :=
  rdy.modSeq 5 fun q => { q with state := .run, phase := .active
                                 step := some { stepOf 0 with w := #v[0, 0, 0, 0, 0, 0, 0, 0x40E] } }
/-- Channel 5 goes to entry 0, a LOOP that sets counter 3 to 7, with END behind it. -/
def loops : State := (rdy.putWords .r 0 [10, 3, 7, 0, 0, 0, 0, 0, 14]).modSeq 5 fun q => { q with state := .run, next := .load 0 }
/-- Channel 5 waits for the broker. -/
def waits : State :=
  { rdy.modSeq 5 fun q => { q with state := .run, phase := .queued, step := some (stepOf 1) } with
    bench := { rdy.bench with queue := [⟨5, 0, 0, 0, 0, false, false⟩] } }

theorem engine_of (n : Chan) (x : MeasIn) (s u : State)
    (h : (s.ready && decide (s.sys.rstReq = none) && decide (s.pwr.state = .run) && decide (u.pwr.state = .run)
      && (!u.bench.buv && !bit (u.reg 0x10 0x01) 1
      && (u.rx false).all Reaction.settle && (u.rx true).all Reaction.settle) && decide (stopOf x.safes n = none)
      && (allChans.all fun k => !u.formed k) && decide ((u.cell n).seq.state = .run)
      && (allChans.all fun k => decide (k = n) || decide ((u.cell k).seq.state ≠ .run ∧ (u.cell k).seq.state ≠ .hold))) = true) :
    EngineServes n x s u := by
  simp only [Bool.and_eq_true, decide_eq_true_eq, List.all_eq_true, Bool.or_eq_true, Bool.not_eq_true'] at h
  obtain ⟨⟨⟨⟨⟨⟨⟨⟨a, r⟩, b⟩, c⟩, d⟩, e⟩, f⟩, g⟩, k⟩ := h
  refine ⟨a, r, b, c, calm_of u ?_, e, fun k => f k (by simp [allChans]), g, fun j hj => (k j (by simp [allChans])).resolve_left hj⟩
  simp [d]

/-- Word 3 of the step fires with ACTION END, the entries are a LOOP that sets and END, and the entry of channel 5 fits. -/
theorem witness_EngineActs :
    (let u := frameValues meas endsNow
     let q := (u.cell 5).seq
     let st : Step := { stepOf 0 with w := #v[0, 0, 0, 0, 0, 0, 0, 0x40E] }
     EngineServes 5 meas endsNow u ∧ (endsNow.cell 5).seq.phase = .active ∧ q.next = .none ∧ q.step = some st
       ∧ u.overTime 5 = false ∧ u.evaluates = true ∧ (evalWords st q.cvph (u.gangG 5) q.lastQ q.terms).2 = some 3
       ∧ tAct st.w[7] = 2)
    ∧ (let u := frameValues meas loops
       EngineServes 5 meas loops u ∧ (u.cell 5).seq.next = .load 0 ∧ u.inWindow 5 0 = true ∧ u.inWindow 5 1 = true
         ∧ u.banks.bad = [] ∧ u.needsStale 5 (u.fetchStep 0) = false ∧ u.needsStale 5 (u.fetchStep 1) = false
         ∧ (u.fetchStep 0).bad = false ∧ (u.fetchStep 1).bad = false ∧ (u.fetchStep 0).typ = 10
         ∧ fld (u.fetchStep 0).w[1] 4 2 = 0 ∧ (u.fetchStep 1).typ = 14)
    ∧ (let u := frameValues meas waits
       let v := frameSums meas waits
       EngineServes 5 meas waits u ∧ (waits.cell 5).seq.phase ≠ .active ∧ u.overTime 5 = false ∧ (u.cell 5).seq.next = .none
         ∧ v.pick true (rankOrder v.bench.queue) = some ⟨5, 0, 0, 0, 0, false, false⟩) :=
  ⟨⟨engine_of _ _ _ _ (by decide +kernel), by decide +kernel⟩, ⟨engine_of _ _ _ _ (by decide +kernel), by decide +kernel⟩,
    engine_of _ _ _ _ (by decide +kernel), by decide +kernel⟩

/-- A frame that brings one sample to each channel. -/
def sampled : MeasIn := { meas with chans := List.replicate 32 { quiet with samples := [⟨1000000, 500000, 0, 0⟩] } }

theorem witness_TotalsAdd : rdy.ready = true ∧ rdy.sys.rstReq = none ∧ rdy.pwr.state = .run ∧ rdy.measOn 31 = true
    ∧ 31 < sampled.chans.length
    ∧ ∀ k : Chan, rdy.formed k = false := by decide +kernel

/-- RLIM_TIME of 1 s passed by 1 ms. -/
def late : State := ((runs 1 rdy).setReg 0x25 0x2C 1).modSeq 5 fun q => { q with loadT := 1001 }

/-- A PULSE step whose level A of 0 ms has lasted `t` samples. -/
def pulsing (t : Int) : State := (runs 6 rdy).modSeq 5 fun q => { q with levelT := t }

/-- Nothing new since the last command that brought samples. -/
def noneNew : Fresh := ⟨[], []⟩

/-- The last SAFE ramp, which a software reset waits for. -/
def awaited : State := { ramping with sys := { ramping.sys with rstReq := some true } }

theorem witness_StepEvents : Calm awaited ∧ awaited.sys.rstReq = some true ∧ (endRamp 5 awaited).anyRamp = false
    ∧ Calm late ∧ (late.cell 5).seq.state = .run ∧ late.member 5 = false ∧ late.overTime 5 = true
    ∧ (late.step 5).isSome = true ∧ Calm (pulsing 50) ∧ (pulsing 50).activeStep 5 = some (stepOf 6) ∧ (stepOf 6).typ = 6
    ∧ ((pulsing 50).cell 5).ps.rsw = false
    ∧ ((stepOf 6).levelTime ((pulsing 50).cell 5).seq.levelB : Int) ≤ ((pulsing 50).cell 5).seq.levelT + ((bring noneNew (pulsing 50)).gotN 5 : Int)
    ∧ (runs 3 rdy).activeStep 5 = some (stepOf 3) ∧ (stepOf 3).typ = 3 ∧ rdy.sys.rstReq = none ∧ rdy.formed 5 = false
    ∧ ((staged (fun p => { p with ramp := true }) rdy).cell 5).ps.ramp = true
    ∧ ((staged (fun p => { p with toZero := true }) rdy).cell 5).ps.toZero = true
    ∧ ((staged (fun p => { p with rsw := true }) rdy).cell 5).ps.rsw = true
    ∧ ((staged (fun p => { p with rsw := true }) rdy).cell 5).ps.toZero = false := by
  and_intros <;> first
    | exact settled_of _ (by decide +kernel) | exact calm_of _ (by decide +kernel) | exact stored_of _ (by decide +kernel)
    | exact gangs_of _ (by decide +kernel) | exact accepts_of _ _ _ (by decide +kernel) | decide +kernel

/-- A DCIR step in a phase, so many samples after its pulse edge; an EIS sweep at point k after a long time; a capture with its
508 pairs in slot 5. -/
def dcirAt (ph : BitVec 2) (edge : Int) : State :=
  (runs 7 rdy).modCell 5 fun c => { c with dcir := { c.dcir with phase := ph, edge := edge } }
def eisAt (k : Nat) : State :=
  (runs 8 rdy).modCell 5 fun c => { c with eis := { c.eis with running := true, k := k, ms := 10 ^ 7 } }
def capUse : SlotUse := ⟨1, 7, 0, 0, 1⟩
def capturing : State :=
  { rdy.modCell 5 fun c => { c with pair := ⟨0, 0, 0, 508⟩ } with
    cap := { rdy.cap with armed := 0x20, uses := rdy.cap.uses.set 5 (some capUse) } }

theorem witness_DcirEisCapture : Calm (dcirAt 1 0) ∧ (dcirAt 1 0).dcirStep 5 [1] = some (stepOf 7)
    ∧ ((dcirAt 1 0).cell 5).ps.rsw = false
    ∧ ((50 * fld (stepOf 7).w[3] 0 16 : Nat) : Int) ≤ ((dcirAt 1 0).cell 5).seq.levelT + ((bring noneNew (dcirAt 1 0)).gotN 5 : Int)
    ∧ (dcirAt 2 500).works dCapt = true ∧ (eisAt 0).works dCapt = true ∧ capturing.works dCapt = true
    ∧ (dcirAt 2 0).dcirStep 5 [2] = some (stepOf 7)
    ∧ ((50 * fld (stepOf 7).w[3] 16 16 : Nat) : Int) ≤ (bring noneNew (dcirAt 2 0)).sinceEdge 5
    ∧ (dcirAt 2 500).dcirStep 5 [2, 3] = some (stepOf 7) ∧ (bring noneNew (dcirAt 2 500)).dcirMeans 5 false = some (0, 0)
    ∧ ((dcirAt 2 500).cell 5).dcir.formed false = false ∧ (dcirAt 3 50000).dcirStep 5 [2, 3] = some (stepOf 7)
    ∧ (bring noneNew (dcirAt 3 50000)).dcirMeans 5 true = some (0, 0) ∧ ((dcirAt 3 50000).cell 5).dcir.formed true = false
    ∧ (dcirAt 3 0).dcirStep 5 [3] = some (stepOf 7)
    ∧ ((50 * (fld (stepOf 7).w[3] 16 16 + fld (stepOf 7).w[3] 0 16) : Nat) : Int) ≤ (bring noneNew (dcirAt 3 0)).sinceEdge 5
    ∧ (eisAt 0).eisStep 5 = some (stepOf 8) ∧ ((eisAt 0).cell 5).eis.rerun = none ∧ ((eisAt 0).cell 5).eis.k < (stepOf 8).eisN
    ∧ (stepOf 8).eisSettle 0 + 2 * (stepOf 8).eisTint 0 ≤ ((eisAt 0).cell 5).eis.ms ∧ (∀ w ∈ (eisAt 0).banks.bad, w.1 ≠ .c)
    ∧ (eisAt 1).eisStep 5 = some (stepOf 8) ∧ ((eisAt 1).cell 5).eis.again = [] ∧ (stepOf 8).eisN ≤ ((eisAt 1).cell 5).eis.k
    ∧ Calm capturing ∧ bit capturing.cap.armed 5 = true ∧ capturing.cap.uses[5] = some capUse ∧ capUse.kind = 1
    ∧ 508 ≤ (capturing.cell 5).pair.written := by
  and_intros <;> first
    | exact settled_of _ (by decide +kernel) | exact calm_of _ (by decide +kernel) | exact stored_of _ (by decide +kernel)
    | exact gangs_of _ (by decide +kernel) | exact accepts_of _ _ _ (by decide +kernel) | decide +kernel

/-- Channel 5 armed, with what the comparators look at beyond its limits. -/
def beyond : State :=
  ((inState .armed rdy).setReg 0x25 0x29 0).modCell 5 fun c =>
    { c with meas := { c.meas with hot := 65536, cold := 65536, vdrop := 1 } }

theorem witness_TripsStop : rdy.sys.rstReq = none
    ∧ (∀ t ∈ [Trip.vmax, .vmin, .ichg, .idis, .tmax, .tmin, .q, .sense], beyond.tripArmed 5 t = true)
    ∧ (∀ t ∈ [Trip.peakFault, .swnode, .bootFault],
      (staged (fun p => { p with switching := true }) rdy).tripArmed 5 t = true ∧ tripFaults t = true)
    ∧ (staged (fun p => { p with ramp := true }) rdy).tripArmed 5 .rampAbort = true ∧ rdy.member 5 = false
    ∧ rdy.formed 5 = false := by decide +kernel

/-- Channel 5 switches in FRUGAL. -/
def frugal : State := staged (fun p => { p with switching := true }) ((runs 1 rdy).setReg 0x25 0x08 0x03)

theorem witness_PowerStageEvents : Calm frugal ∧ frugal.drives 5 = true ∧ frugal.converts 5 = true
    ∧ bit ((rdy.setReg 0x25 0x40 0).chReg 5 0x40) 1 = false ∧ frugal.burstOk 5 = true
    ∧ (frugal.clampHard 5 0).natAbs < 1000 * fld (frugal.chReg 5 0x46) 0 16
    ∧ fld (frugal.chReg 5 0x46) 0 16 < fld (frugal.chReg 5 0x46) 16 16
    ∧ 1000 * fld (frugal.chReg 5 0x46) 16 16 < (((frugal.setReg 0x25 0x22 40000000).clampHard 5 2000001)).natAbs
    ∧ (runs 1 rdy).burstOk 5 = false ∧ ((staged (fun p => { p with trickleOn := true }) rdy).cell 5).ps.trickleOn = true
    ∧ (staged (fun p => { p with trickleOn := true }) rdy).driveOn 5 = true
    ∧ (staged (fun p => { p with trickleOn := true }) rdy).coreOn = true
    ∧ 10 ≤ ((rdy.modCell 5 fun c => { c with meas := { c.meas with differ := 10 } }).cell 5).meas.differ
    ∧ Calm (rdy.modCell 5 fun c => { c with meas := { c.meas with differ := 10 } }) := by
  and_intros <;> first
    | exact settled_of _ (by decide +kernel) | exact calm_of _ (by decide +kernel) | exact stored_of _ (by decide +kernel)
    | exact gangs_of _ (by decide +kernel) | exact accepts_of _ _ _ (by decide +kernel) | decide +kernel

/-! ### Witnesses: LEAF, BENCH, interrupts -/

/-- The LEAF enabled, with channel 31 deferred. -/
def leafOn : State := { rdy.setReg 0x0C 0x01 1 with leaf := { rdy.leaf with deferred := 0x80000000 } }
/-- A visit of channel 31 whose present phase has had its time; the sums of its confirmation, of one sample each. -/
def visitSums (c : Int) : Sums := { Sums.zero with nc := 1, c := c }
def visitAt (ph : VPhase) (standin : Bool) : State :=
  { rdy with leaf := { rdy.leaf with phase := ph, ch := 31, standin := standin, inPhase := 1000
                                     sums := (visitSums rdy.confirm.1, visitSums rdy.confirm.2.1, visitSums rdy.confirm.2.2) } }

/-- The LEAF enabled with a mask of channels 30 and 31, at channel 3 of the rotation. -/
def leafNext : State := { (rdy.setReg 0x0C 0x01 1).setReg 0x0C 0x09 0xC0000000 with leaf := { rdy.leaf with nextN := 3 } }

theorem witness_LeafVisit : leafNext.leafRuns = true ∧ leafNext.leaf.selfFail = false ∧ leafNext.leafDeferred = none
    ∧ leafNext.leaf.nextN ≤ 30 ∧ bit (leafNext.reg 0x0C 0x09) 30 = true ∧ leafNext.leafBlocked 30 = false
    ∧ (∀ k : Chan, leafNext.leaf.nextN ≤ k.val → k.val < 30 → bit (leafNext.reg 0x0C 0x09) k.val = false)
    ∧ (visitAt .overlapIn false).leaf.leaving = none ∧ leafOn.leafRuns = true ∧ leafOn.leaf.selfFail = false
    ∧ leafOn.leafDeferred = some 31
    ∧ (visitAt .overlapIn false).leaf.phase = .overlapIn
    ∧ (visitAt .overlapIn false).phaseMs 24 ≤ (visitAt .overlapIn false).leaf.inPhase ∧ Calm (visitAt .overlapIn false)
    ∧ (visitAt .zero true).leaf.phase = .zero ∧ (visitAt .zero true).phaseMs 16 ≤ (visitAt .zero true).leaf.inPhase
    ∧ Calm (visitAt .zero true) ∧ (visitAt .reference true).leaf.phase = .reference
    ∧ (visitAt .reference true).phaseMs 16 ≤ (visitAt .reference true).leaf.inPhase
    ∧ (visitAt .overlapOut true).leaf.phase = .overlapOut ∧ (visitAt .overlapOut true).leaf.standin = true
    ∧ (visitAt .overlapOut true).leaf.cut = false ∧ 2 ≤ (visitAt .overlapOut true).leaf.inPhase
    ∧ Calm (visitAt .overlapOut true) := by
  and_intros <;> first
    | exact settled_of _ (by decide +kernel) | exact calm_of _ (by decide +kernel) | exact stored_of _ (by decide +kernel)
    | exact gangs_of _ (by decide +kernel) | exact accepts_of _ _ _ (by decide +kernel) | decide +kernel

/-- A blend of channel 31 with α at 1. -/
def blending : State :=
  { rdy with leaf := { rdy.leaf with blend := rdy.leaf.blend.set 31 (some ⟨⟨1, 2⟩, ⟨3, 4⟩, ⟨5, 6⟩⟩)
                                     alpha := rdy.leaf.alpha.set 31 (1, 1, 1) } }
/-- Channel 31 unvisited for longer than the least MAXAGE. -/
def ageing : State := { rdy.setReg 0x0C 0x0A 0 with leaf := { rdy.leaf with ages := rdy.leaf.ages.set 31 100001 } }

/-- Deviations equal to the limits of CONFIRM, and one count past the first. -/
theorem witness_LeafEnds : (visitAt .zero true).acts .hostlink = true ∧ (visitAt .overlapOut false).leaf.leaving = none
    ∧ (let s : State := { leafOn with leaf := { rdy.leaf with nextN := 32 } }
       s.leafRuns = true ∧ s.leaf.selfFail = false ∧ s.leaf.nextN = 32 ∧ s.leafDeferred = none ∧ Calm s)
    ∧ (((visitAt .zero true).modSeq 31 fun q => { q with state := .hold }).cell 31).seq.state.live = true
    ∧ (visitAt .zero true).formed 31 = false ∧ Calm (visitAt .overlapOut false) ∧ (visitAt .overlapOut false).visited = some 31
    ∧ (visitAt .overlapOut false).leaf.phase = .overlapOut ∧ (visitAt .overlapOut false).leaf.standin = false
    ∧ (visitAt .overlapOut false).leaf.failed = false
    ∧ (visitAt .overlapOut false).phaseMs 8 ≤ (visitAt .overlapOut false).leaf.inPhase
    ∧ ((visitAt .overlapOut false).leaf.sums.1.within rdy.confirm.1
      && (visitAt .overlapOut false).leaf.sums.2.1.within rdy.confirm.2.1
      && (visitAt .overlapOut false).leaf.sums.2.2.within rdy.confirm.2.2) = true
    ∧ (visitSums (rdy.confirm.1 + 1)).within rdy.confirm.1 = false ∧ blending.leaf.blend[31] = some ⟨⟨1, 2⟩, ⟨3, 4⟩, ⟨5, 6⟩⟩
    ∧ blending.leaf.alpha[31] = (1, 1, 1) ∧ Calm blending
    ∧ ({ leafOn with leaf := { leafOn.leaf with selfFail := true } } : State).leafRuns = true
    ∧ (visitAt .selfSlot false).leaf.phase = .selfSlot
    ∧ (visitAt .selfSlot false).phaseMs 0 ≤ (visitAt .selfSlot false).leaf.inPhase
    ∧ (visitAt .reference true).visited = some 31 ∧ (visitAt .zero true).visited = some 31
    ∧ (visitAt .zero true).leaf.gapFill = false ∧ (visitAt .zero true).sys.rstReq = none ∧ ageing.pwr.state = .run
    ∧ bit (ageing.reg 0x0C 0x09) 31 = true ∧ bit ageing.leaf.aged 31 = false
    ∧ 1000 * max 100 (ageing.regF 0x0C 0x0A 0 16) < ageing.leaf.ages[31] ∧ Settled (visitAt .zero true)
    ∧ Stored (visitAt .zero true) ∧ (visitAt .zero true).visiting = true := by
  and_intros <;> first
    | exact settled_of _ (by decide +kernel) | exact calm_of _ (by decide +kernel) | exact stored_of _ (by decide +kernel)
    | exact gangs_of _ (by decide +kernel) | exact accepts_of _ _ _ (by decide +kernel) | decide +kernel

/-- VB off for ten frames. -/
def farOff : State := { rdy with bench := { rdy.bench with senseFar := 10 } }
/-- V_B at V_UVW, and 1 µV below it. -/
def atUvw (d : Int) : State := { rdy with bench := { rdy.bench with vbUse := rdy.benchI 0x26 - d } }
/-- Channel 5 in a range that draws from BENCH, discharging or charging. -/
def drawing (i : Int) : State := staged (fun p => { p with iref := i }) (runs 1 rdy)

theorem witness_BenchConditions : rdy.works dMeasB = true ∧ 10 ≤ farOff.bench.senseFar ∧ farOff.works dMeasB = true
    ∧ farOff.bench.subst = false ∧ rdy.benchI 0x25 < rdy.benchI 0x25 + 1 ∧ rdy.bench.bov = false
    ∧ ({ rdy with bench := { rdy.bench with bov := true } } : State).bench.bov = true
    ∧ (∀ n : Chan, (drawing (-1)).formed n = false) ∧ ((drawing (-1)).cell 5).ps.iref < 0 ∧ (drawing (-1)).onBench 5 = true
    ∧ rdy.benchI 0x27 - 1 < rdy.benchI 0x27 ∧ rdy.bench.buv = false ∧ 0 < ((drawing 1).cell 5).ps.iref
    ∧ (atUvw 1).uvwLow = true ∧ (atUvw 0).uvwLow = false ∧ (atUvw 1).bench.buvw = false ∧ Calm (atUvw 1) ∧ Calm (atUvw 0) := by
  and_intros <;> first
    | exact settled_of _ (by decide +kernel) | exact calm_of _ (by decide +kernel) | exact stored_of _ (by decide +kernel)
    | exact gangs_of _ (by decide +kernel) | exact accepts_of _ _ _ (by decide +kernel) | decide +kernel

/-- An entry that has waited 1 ms longer than the stall time of 1 s. -/
def stalling : State :=
  { rdy.setReg 0x0B 0x2B 1 with bench := { rdy.bench with queue := [⟨32, 0, 5, 0, 1001, false, false⟩] } }

theorem witness_BrokerCommands : rdy.acts .hostlink = true ∧ Calm stalling ∧ stalling.coreOn = true
    ∧ (⟨32, 0, 5, 0, 1001, false, false⟩ : QEntry) ∈ stalling.bench.queue
    ∧ stalling.stalls ⟨32, 0, 5, 0, 1001, false, false⟩ = true ∧ Calm rdy ∧ rdy.coreOn = true ∧ Settled rdy ∧ bit 0x100 8 = true
    ∧ bit 0x100 9 = false ∧ bit 0x200 9 = true := by
  and_intros <;> first
    | exact settled_of _ (by decide +kernel) | exact calm_of _ (by decide +kernel) | exact stored_of _ (by decide +kernel)
    | exact gangs_of _ (by decide +kernel) | exact accepts_of _ _ _ (by decide +kernel) | decide +kernel

/-- SOFT0, ID 96, latched at priority 7, with GIE and a stack of n entries. -/
def soft (n : Nat) : State :=
  { (rdy.setReg 0x03 0x2C 7).setReg 0x03 0x01 1 with
    irq := { rdy.irq with latch := BitVec.ofNat 128 (2 ^ 96), stack := (List.range n).map fun i => ⟨Fin.ofNat 128 i, 7⟩ } }

theorem witness_ClaimServes : rdy.works dBarf = true ∧ (soft 7).works dBarf = true ∧ (soft 8).works dBarf = true
    ∧ Calm (soft 7) ∧ rdy.gie = false ∧ Calm rdy ∧ (soft 8).gie = true ∧ (soft 8).irq.stack.length = 8
    ∧ Calm (soft 8) ∧ (rdy.setReg 0x03 0x01 1).gie = true ∧ (rdy.setReg 0x03 0x01 1).irq.stack.length ≠ 8
    ∧ (∀ j : Fin 128, (rdy.setReg 0x03 0x01 1).eligible j = true →
        (rdy.setReg 0x03 0x01 1).prio j.val < (rdy.setReg 0x03 0x01 1).level)
    ∧ (soft 7).gie = true ∧ (soft 7).irq.stack.length < 8 ∧ (soft 7).eligible 96 = true ∧ (soft 7).level ≤ (soft 7).prio 96
    ∧ (∀ j : Fin 128, (soft 7).eligible j = true → (soft 7).prio j.val < (soft 7).prio 96
      ∨ ((soft 7).prio j.val = (soft 7).prio 96 ∧ (96 : Fin 128) ≤ j))
    ∧ pulseSource 96 = true ∧ (96 : Fin 128) ∉ ([] : List (Fin 128)) := by
  and_intros <;> first
    | exact settled_of _ (by decide +kernel) | exact calm_of _ (by decide +kernel) | exact stored_of _ (by decide +kernel)
    | exact gangs_of _ (by decide +kernel) | exact accepts_of _ _ _ (by decide +kernel) | decide +kernel

theorem witness_EoiReleases : (soft 7).acts .hostlink = true ∧ Settled (soft 7) ∧ Calm (soft 7)
    ∧ (soft 7).stackPos (fld 6 0 8) = some 6 ∧ (soft 7).stackPos (fld 0 0 8) = some 0
    ∧ 6 + 1 = (soft 7).irq.stack.length ∧ StackOk (soft 7) ∧ (soft 7).stackPos (fld 0x7F 0 8) = none ∧ Master.mgmt ≠ .hostlink :=
  ⟨by decide +kernel, settled_of _ (by decide +kernel), calm_of _ (by decide +kernel), by decide +kernel, by decide +kernel,
    by decide +kernel,
    And.intro (by decide +kernel) (by decide +kernel), by decide +kernel, by decide⟩

theorem witness_IrqRegisters : (soft 0).acts .mgmt = true ∧ Settled (soft 0) ∧ Calm (soft 0) ∧ Stored (soft 0)
    ∧ bit 1 0 = true ∧ (soft 0).prio 96 ≠ 0
    ∧ (127 : Fin 128).val = 32 * (3 : Fin 4).val + (31 : Fin 32).val ∧ pulseSource 127 = true
    ∧ ((soft 0).setReg 0x03 0x2F 0x70000000).prio 127 ≠ 0 := by
  and_intros <;> first
    | exact settled_of _ (by decide +kernel) | exact calm_of _ (by decide +kernel) | exact stored_of _ (by decide +kernel)
    | exact gangs_of _ (by decide +kernel) | exact accepts_of _ _ _ (by decide +kernel) | decide +kernel

/-! ### Witnesses: faults, locks, memories -/

/-- A report that reaches THRESH = 1 exactly, from line BENCH with no channel. -/
def rep : Report := ⟨5, .contained, none, .none, .none, .background, false, 0, 0⟩
/-- A reaction that runs, and one whose settle time runs. -/
def reacting (settle : Bool) : State := { rdy with fcol := { rdy.fcol with rxA := some ⟨2, 5, settle, [⟨2, 5, 0x20⟩], []⟩ } }
/-- n reports in BENCH's window. -/
def counted (n : Nat) : State := rdy.modCom 11 fun c => { c with count := n }

theorem witness_ReportsLatch : rdy.asleep = false ∧ (reacting false).sys.rstReq = none ∧ Calm rdy ∧ rdy.shadowOf rep = none
    ∧ rdy.com[(reportCounter rep).val].count + 1 ≤ rdy.com[(reportCounter rep).val].thresh.toNat
    ∧ rdy.com[(reportCounter rep).val].lastLines = 0 ∧ rdy.com[(reportCounter rep).val].lastChan = false
    ∧ rdy.reaction rep .contained ≠ 0 ∧ (reacting false).asleep = false ∧ (reacting true).asleep = false
    ∧ (reacting false).rx false = some ⟨2, 5, false, [⟨2, 5, 0x20⟩], []⟩
    ∧ [(⟨2, 5, 0x20⟩ : RxPart)].all (RxPart.ended (reacting false) false) = true ∧ Calm (reacting true)
    ∧ (reacting true).fcol.rxA = some ⟨2, 5, true, [⟨2, 5, 0x20⟩], []⟩ ∧ Calm (counted 1) ∧ (counted 1).com[11].count ≤ 1
    ∧ 1 < (counted 2).com[11].count := by
  and_intros <;> first
    | exact settled_of _ (by decide +kernel) | exact calm_of _ (by decide +kernel) | exact stored_of _ (by decide +kernel)
    | exact gangs_of _ (by decide +kernel) | exact accepts_of _ _ _ (by decide +kernel) | decide +kernel

/-- FAIL_STOP of cause 3. -/
def stopped : State := { opened 4 rdy with fcol := { rdy.fcol with failStop := true, fsCause := 3 } }

theorem witness_FailStopAndInject : (opened 4 rdy).acts .hostlink = true ∧ stopped.acts .hostlink = true ∧ rdy.coreOn = true
    ∧ Calm (opened 4 rdy) ∧ Settled (opened 4 rdy)
    ∧ (opened 4 rdy).openFor bFcol .hostlink = true ∧ bit 1 0 = true ∧ (opened 4 rdy).fcol.failStop = false
    ∧ GangsShare (opened 4 rdy) ∧ Settled stopped ∧ Calm stopped ∧ stopped.openFor bFcol .hostlink = true ∧ bit 2 0 = false
    ∧ bit 2 1 = true ∧ stopped.fcol.fsCause ≠ 2 ∧ stopped.fcol.clsFat = 0 ∧ stopped.noneLasting = true
    ∧ ({ opened 4 rdy with sec := { rdy.sec with life := .factory } } : State).sec.life = .factory ∧ bit 0xC5800000 31 = true
    ∧ fld 0xC5800000 29 2 = 2 ∧ fld 0xC5800000 29 2 ≠ 3 ∧ (opened 4 rdy).asleep = false ∧ rdy.ready = true
    ∧ rdy.fcol.failStop = false := by
  and_intros <;> first
    | exact settled_of _ (by decide +kernel) | exact calm_of _ (by decide +kernel) | exact stored_of _ (by decide +kernel)
    | exact gangs_of _ (by decide +kernel) | exact accepts_of _ _ _ (by decide +kernel) | decide +kernel

/-- The keys of R46 for page 0x0B, and a key that is neither, with BADKEY at 14. -/
theorem witness_RearmsAndLocks : rdy.acts .hkcore = true ∧ (opened 11 rdy).acts .hostlink = true ∧ Settled rdy ∧ Calm rdy
    ∧ fld 0x4F500B00 16 16 = 0x4F50 ∧ fld 0x4F500B00 8 8 = blkPage 11
    ∧ rdy.com[11].lockOpen = false ∧ masterOwner .hkcore ≠ 0 ∧ fld 0x434C0B00 16 16 = 0x434C ∧ fld 0x434C0B00 8 8 = blkPage 11
    ∧ (opened 11 rdy).openFor 11 .hostlink = true ∧ fld 0x00010B00 16 16 ≠ 0 ∧ fld 0x00010B00 16 16 ≠ 0x4F50
    ∧ fld 0x00010B00 16 16 ≠ 0x434C ∧ (rdy.modCom 11 fun c => { c with badKey := 14 }).com[11].badKey ≠ 15 := by
  and_intros <;> first
    | exact settled_of _ (by decide +kernel) | exact calm_of _ (by decide +kernel) | exact stored_of _ (by decide +kernel)
    | exact gangs_of _ (by decide +kernel) | exact accepts_of _ _ _ (by decide +kernel) | decide +kernel

/-- Recoveries of log slot 8,191 and of group 0 of BANK-H; a march over every bank, at its first group. -/
def recovering : State := { rdy with memc := { rdy.memc with recov :=
    [⟨.l, 262140, .hostlink, .read⟩, ⟨.h, 252, .hkcore, .read⟩] } }
def marching (stop : Bool) : State :=
  { rdy.setReg 0x09 0x01 0xF00 with memc := { rdy.memc with running := true, stop := stop, seqNext := some (0, 1) } }

theorem witness_RecoveryAndMarch : rdy.acts .hostlink = true ∧ (marching false).acts .hostlink = true
    ∧ recovering.coreOn = true ∧ (∀ u ∈ ([] : List Upset), u.bank = .l)
    ∧ recovering.recovery .l (32 * (8191 : Fin 8192).val) 32 = some ⟨.l, 262140, .hostlink, .read⟩ ∧ Stored recovering
    ∧ recovering.unreadIn 8191 = none ∧ recovering.works dHk = true
    ∧ recovering.recovery .h 0 256 = some ⟨.h, 252, .hkcore, .read⟩ ∧ Settled rdy ∧ Calm rdy ∧ rdy.memc.running = false
    ∧ (rdy.setReg 0x09 0x01 0x800).marchFrom 0 = some (3, 0) ∧ Settled (marching false) ∧ Calm (marching false)
    ∧ (marching false).memc.running = true ∧ (marching false).coreOn = true
    ∧ (marching false).badIn (marchBank (marching false).memc.bank.toNat)
      (marchAddr (marching false).memc.bank.toNat (marching false).memc.group.toNat)
      (marchAddr (marching false).memc.bank.toNat (marching false).memc.group.toNat + 256) = []
    ∧ (⟨[], none, [], false, false⟩ : GroupIn).fail = none ∧ (marching true).memc.stop = true ∧ Calm (marching true)
    ∧ (marching false).memc.stop = false ∧ (marching false).memc.again = [] ∧ (marching false).memc.seqNext = some (0, 1)
    ∧ (⟨[], some 63, [], false, false⟩ : GroupIn).fail.isSome = true := by
  and_intros <;> first
    | exact settled_of _ (by decide +kernel) | exact calm_of _ (by decide +kernel) | exact stored_of _ (by decide +kernel)
    | exact gangs_of _ (by decide +kernel) | exact accepts_of _ _ _ (by decide +kernel) | decide +kernel

/-- Check unit 0 in SCRUB or PORT mode over the last two words of the recipe table. -/
def scrubbing (mode : Nat) (busy : Bool) : State :=
  { ((((rdy.setReg 0x0A 0x01 3).setReg 0x0A 0x10 (put mode 30)).setReg 0x0A 0x15 0x7FF8).setReg 0x0A 0x16 8) with
    units := rdy.units.set 0 { rdy.units[0] with busy := busy } }

theorem witness_CheckUnits : (scrubbing 2 false).acts .hostlink = true ∧ Calm (scrubbing 1 false)
    ∧ (scrubbing 1 false).coreOn = true
    ∧ (scrubbing 1 false).unitMode (unitNo false) = 1 ∧ (scrubbing 1 false).units[0].busy = false
    ∧ (scrubbing 1 true).unitMode (unitNo false) = 1 ∧ (scrubbing 1 true).units[0].busy = true
    ∧ (scrubbing 1 true).units[0].dirty = false ∧ (scrubbing 1 true).unitWords 0 = some [0, 0]
    ∧ (scrubbing 1 true).banks.bad = [] ∧ bit ((scrubbing 1 true).chkReg 0 0) 25 = false ∧ Settled (scrubbing 2 false)
    ∧ (scrubbing 2 false).unitMode (unitNo false) = 2 ∧ (scrubbing 2 false).unitRoom (unitNo false) = true
    ∧ ((scrubbing 2 false).setReg 0x0A 0x16 0xC).units[0].block.length + 2 < fld (((scrubbing 2 false).setReg 0x0A 0x16 0xC).chkReg 0 6) 2 18 := by
  and_intros <;> first
    | exact settled_of _ (by decide +kernel) | exact calm_of _ (by decide +kernel) | exact stored_of _ (by decide +kernel)
    | exact gangs_of _ (by decide +kernel) | exact accepts_of _ _ _ (by decide +kernel) | decide +kernel

/-! ### Witnesses: secure store, core, power, clock -/

theorem witness_TriggersWipe : rdy.sec.nvpend = false ∧ rdy.sys.stage ≠ 0xF0 ∧ rdy.pwr.state ≠ .off
    ∧ rdy.sec.trig.getLsbD 0 = false
    ∧ bit ((rdy.setReg 0x10 0x01 4).reg 0x10 0x01) 2 = true ∧ 200 < (-201 : Int).natAbs ∧ 200 < (201 : Int).natAbs
    ∧ rdy.sec.trig.getLsbD 2 = false ∧ bit ((rdy.setReg 0x10 0x01 8).reg 0x10 0x01) 3 = true ∧ (-5501 : Int) < -5500
    ∧ (16000 : Int) < 16001 ∧ rdy.sec.trig.getLsbD 3 = false := by decide +kernel

/-- The secure store open to the host link, in a life-cycle state. -/
def secure (l : Life) : State := { opened 16 rdy with sec := { rdy.sec with life := l } }

/-- The erase of the secure partition is under way. -/
def wiping : State := { rdy with sec := { rdy.sec with nvpend := true, erasing := true } }

/-- The secure store open, with a transition pending, a channel in RUN, or FAIL_STOP. -/
def barred : List State :=
  [{ secure .factory with sec := { (secure .factory).sec with pend := some .field } }, runs 1 (secure .factory)
   , { secure .factory with fcol := { rdy.fcol with failStop := true } }]

theorem witness_SecureCommands : ([1] : List Word).length ≠ 8 ∧ (secure .blank).sec.life = .blank
    ∧ (secure .returned).sec.life = .returned ∧ Settled (secure .blank) ∧ Calm (secure .blank) ∧ Settled (secure .returned)
    ∧ Calm (secure .returned) ∧ (secure .returned).openFor bSec .hostlink = true
    ∧ lifeAllows (secure .factory).sec.life (fld 0x4C430000 0 3) = none
    ∧ (∀ s ∈ barred, (s.sec.pend.isSome || s.anyLive || s.fcol.failStop) = true ∧ s.openFor bSec .hostlink = true)
    ∧ ({ opened 0 rdy with sec := { rdy.sec with life := .returned } } : State).sec.life = .returned
    ∧ Settled (opened 0 rdy) ∧ Calm (opened 0 rdy) ∧ rdy.openFor bSys .hostlink = false
    ∧ (secure .factory).acts .hostlink = true ∧ (opened 0 rdy).acts .hostlink = true
    ∧ (∀ w ∈ wiping.banks.bad, w.1 ≠ .s ∧ (w.1 = .nvm → 0xE000 ≤ w.2)) ∧ Settled (secure .factory) ∧ Calm (secure .factory)
    ∧ ([1, 2, 3, 4, 5, 6, 7, 8] : List Word).length = 8 ∧ (secure .factory).openFor bSec .hostlink = true
    ∧ (secure .factory).sec.life ≠ .blank ∧ (secure .factory).sec.life ≠ .returned ∧ Stored (secure .factory)
    ∧ rdy.openFor bSec .hostlink = false ∧ fld 0x4C430002 16 16 = 0x4C43
    ∧ lifeAllows (secure .factory).sec.life (fld 0x4C430002 0 3) = some .calibrated
    ∧ lifeAllows (secure .field).sec.life (fld 0x4C430004 0 3) = some .returned ∧ (secure .factory).sec.pend = none
    ∧ (secure .factory).anyLive = false ∧ (secure .factory).fcol.failStop = false ∧ fld 0x4C440001 16 16 ≠ 0x4C43
    ∧ (opened 0 rdy).openFor bSys .hostlink = true ∧ (opened 0 rdy).sec.life ≠ .returned ∧ wiping.sec.nvpend = true
    ∧ wiping.sec.erasing = true ∧ wiping.hk.restarting = false ∧ wiping.pwr.state = .run ∧ Stored wiping ∧ Settled wiping
    ∧ Calm wiping := by
  and_intros <;> first
    | exact settled_of _ (by decide +kernel) | exact calm_of _ (by decide +kernel) | exact stored_of _ (by decide +kernel)
    | exact gangs_of _ (by decide +kernel) | exact accepts_of _ _ _ (by decide +kernel) | decide +kernel

/-- A mailbox command c in progress, on a device in a life-cycle state, with PROG's arguments at the last words below the secure
partition. -/
def ending (c : Byte) (l : Life) : State :=
  { (rdy.setReg 0x11 0x09 0xDFF8).setReg 0x11 0x0A 2 with hk := { rdy.hk with cmd := some c }, sec := { rdy.sec with life := l } }

/-- The last erasable page of NVM as an argument of ERASE, with a command in progress. -/
def erasing : State :=
  { ((opened 17 rdy).setReg 0x11 0x09 0xDE00).setReg 0x11 0x0A 1 with hk := { rdy.hk with cmd := some 1 } }

theorem witness_MailboxAndCore : (opened 17 rdy).acts .hostlink = true ∧ erasing.acts .hostlink = true
    ∧ (∀ w ∈ rdy.banks.bad, w.1 ≠ .nvm ∧ w.1 ≠ .s) ∧ Calm (opened 17 rdy) ∧ Settled (opened 17 rdy)
    ∧ (opened 17 rdy).openFor bHk .hostlink = true
    ∧ (opened 17 rdy).hk.cmd = none ∧ Settled erasing ∧ Calm erasing ∧ erasing.openFor bHk .hostlink = true
    ∧ erasing.hk.cmd.isSome = true ∧ erasing.works dHk = true ∧ erasing.hk.restarting = false
    ∧ erasing.hk.cmd = some 1 ∧ erasing.nvm.dropped = false
    ∧ erasing.mbRange 1 = some (0xDE00, 0xE000) ∧ erasing.nvmAllowed 0xDE00 0xE000 = true ∧ Stored erasing
    ∧ ({ rdy with hk := { rdy.hk with restarting := true } } : State).works dHk = true
    ∧ ({ rdy with hk := { rdy.hk with restarting := true } } : State).hk.restarting = true ∧ (∀ w ∈ rdy.banks.bad, w.1 ≠ .nvm)
    ∧ (15000 : Int) ≤ 15000 ∧ (14500 : Int) ≤ 14500 ∧ rdy.hk.hot = false
    ∧ sfld (rdy.reg 0x11 0x0D) 0 16 < clampI (-32768) 32767 (sfld (rdy.reg 0x11 0x0D) 0 16 + 1) ∧ rdy.hk.warn = false
    ∧ clampI (-32768) 32767 (sfld (rdy.reg 0x11 0x0D) 0 16 - 500) ≤ sfld (rdy.reg 0x11 0x0D) 0 16 - 500
    ∧ Calm (ending 2 .factory) ∧ (ending 2 .factory).works dHk = true ∧ (ending 2 .factory).hk.restarting = false
    ∧ (ending 2 .factory).nvm.dropped = false ∧ (∀ w ∈ (ending 2 .factory).banks.bad, w.1 ≠ .nvm)
    ∧ (ending 2 .factory).hk.cmd = some 2 ∧ (ending 2 .factory).mbRange 2 = some (0xDFF8, 0xE000)
    ∧ (ending 2 .factory).nvmAllowed 0xDFF8 0xE000 = true ∧ Stored (ending 2 .factory)
    ∧ (∀ i, i < (0xE000 - 0xDFF8) / 4 → (ending 2 .factory).mword .nvm (0xDFF8 + 4 * i) = 0xFFFFFFFF)
    ∧ Calm (ending 3 .calibrated) ∧ (ending 3 .calibrated).hk.cmd = some 3 ∧ (ending 3 .calibrated).sec.life = .calibrated
    ∧ (ending 3 .field).sec.life = .field ∧ Stored (ending 3 .field) ∧ Calm (ending 4 .blank)
    ∧ (ending 4 .blank).hk.cmd = some 4 := by
  and_intros <;> first
    | exact settled_of _ (by decide +kernel) | exact calm_of _ (by decide +kernel) | exact stored_of _ (by decide +kernel)
    | exact gangs_of _ (by decide +kernel) | exact accepts_of _ _ _ (by decide +kernel) | decide +kernel

/-- A power state, a state chosen, an entry in progress, a wake in progress. -/
def powered (st ch : PState) (en : Bool) (w : Option (BitVec 4 × BitVec 3)) : State :=
  { rdy.setReg 0x02 0x0E 0x80 with pwr := { rdy.pwr with state := st, chosen := ch, entering := en, waking := w } }

theorem witness_PowerStates : Calm (powered .nap .nap false none) ∧ rdy.pwr.failed.getLsbD 7 = false
    ∧ (powered .run .doze true none).pwr.entering = true ∧ Calm (powered .run .doze true none)
    ∧ (powered .run .doze true none).pwr.chosen = .doze ∧ Calm (powered .run .sleep true none)
    ∧ (powered .sleep .sleep false none).pwr.entering = false ∧ (powered .sleep .sleep false none).pwr.state ≠ .run
    ∧ (powered .sleep .sleep false none).pwr.state ≠ .off ∧ (powered .sleep .sleep false none).pwr.waking = none
    ∧ (powered .sleep .sleep false none).asleep = true ∧ (powered .sleep .sleep false none).pinWakes 7 = true
    ∧ (powered .sleep .sleep false none).works dIo24 = true ∧ Calm (powered .sleep .sleep false none)
    ∧ (powered .sleep .sleep false none).coreOn = false ∧ rdy.pwr.nextEvent.toNat ≤ 1
    ∧ (powered .doze .doze false (some (15, 7))).pwr.waking = some (15, 7)
    ∧ (powered .doze .doze false (some (15, 7))).fcol.held = [] ∧ Calm (powered .doze .doze false (some (15, 7)))
    ∧ ({ rdy with pwr := { rdy.pwr with inRun := 65535 } } : State).dwellOver = true := by
  and_intros <;> first
    | exact settled_of _ (by decide +kernel) | exact calm_of _ (by decide +kernel) | exact stored_of _ (by decide +kernel)
    | exact gangs_of _ (by decide +kernel) | exact accepts_of _ _ _ (by decide +kernel) | decide +kernel

theorem witness_ClockFailures : rdy.clk.pllUnlock = false ∧ rdy.coreOn = true ∧ Calm rdy ∧ rdy.clk.xtalFail = false
    ∧ (powered .doze .doze false none).pwr.state ≠ .sleep ∧ (powered .doze .doze false none).pwr.state ≠ .off
    ∧ rdy.pwr.state ≠ .sleep ∧ rdy.pwr.state ≠ .off ∧ rdy.clk.rtcStop = false := by
  and_intros <;> first
    | exact settled_of _ (by decide +kernel) | exact calm_of _ (by decide +kernel) | exact stored_of _ (by decide +kernel)
    | exact gangs_of _ (by decide +kernel) | exact accepts_of _ _ _ (by decide +kernel) | decide +kernel

/-- ALARM at 2 fraction units, enabled: one period of the crystal reaches it. -/
def alarmed : State := (rdy.setReg 0x01 0x01 4).setReg 0x01 0x0B 2

theorem witness_CalendarCounts : rdy.acts .hostlink = true ∧ rdy.cal / rdy.tickUnits < (rdy.cal + 2 * 2 ^ 24) / rdy.tickUnits
    ∧ (rdy.setReg 0x03 0x2A 1).prio 80 ≠ 0 ∧ Calm rdy ∧ Settled rdy ∧ Stored rdy ∧ bit 2 0 = false
    ∧ bit ((rdy.setReg 0x01 0x01 1).reg 1 1) 0 = true ∧ Calm alarmed ∧ alarmed.clk.rtcStop = false ∧ alarmed.calTrim = 0
    ∧ bit (alarmed.reg 1 1) 2 = true ∧ alarmed.cal < alarmed.alarmAt ∧ alarmed.alarmAt ≤ alarmed.cal + 2 * 1 := by
  and_intros <;> first
    | exact settled_of _ (by decide +kernel) | exact calm_of _ (by decide +kernel) | exact stored_of _ (by decide +kernel)
    | exact gangs_of _ (by decide +kernel) | exact accepts_of _ _ _ (by decide +kernel) | decide +kernel

/-! ### Witnesses: field I/O, fixture, management bus -/

/-- Pin 7 as an input with wire-break detection, and as an output that drives 1. -/
def wired : State := rdy.setReg 0x08 0x0F 0x20000000
def driving : State := (rdy.setReg 0x08 0x0F 0x80000000).setReg 0x08 0x11 0x80
/-- L+ missing. -/
def noLp : State := { rdy with io := { rdy.io with lpMiss := true, lpLow := true } }

/-- Pin 7 sampled every 20 µs. -/
def slow : State := rdy.setReg 0x08 0x0F 0x20080000

theorem witness_FieldPins : wired.acts .hostlink = true ∧ wired.ready = true ∧ Calm slow ∧ slow.samples = true
    ∧ slow.isOut 7 = false ∧ slow.io.pins[7].phase + 1 < ioPeriod (slow.pcfg 7)
    ∧ ioPeriod (wired.pcfg 7) ≤ wired.io.pins[7].phase + 1 ∧ Calm wired ∧ wired.samples = true ∧ wired.isOut 7 = false
    ∧ Settled wired ∧ Stored wired
    ∧ bit (wired.pcfg 7) 29 = true ∧ wired.io.pins[7].wb = false
    ∧ (wired.modPin 7 fun p => { p with wb := true }).io.pins[7].wb = true
    ∧ Calm (wired.modPin 7 fun p => { p with wb := true }) ∧ driving.isOut 7 = true ∧ driving.outLevel 7 = true
    ∧ Calm driving ∧ bit 0x80 7 = true ∧ (0x7F : Byte).getLsbD 7 = false ∧ bit 2 1 = true ∧ rdy.safeHolds 7 = false
    ∧ rdy.io.lpMiss = false ∧ noLp.io.lpMiss = true ∧ Calm noLp ∧ rdy.io.lpLow = false := by
  and_intros <;> first
    | exact settled_of _ (by decide +kernel) | exact calm_of _ (by decide +kernel) | exact stored_of _ (by decide +kernel)
    | exact gangs_of _ (by decide +kernel) | exact accepts_of _ _ _ (by decide +kernel) | decide +kernel

/-- A tag whose header is version 1 and whose first count copy is current, and the answers to one challenge. -/
def tag : List Byte :=
  let h : List Byte := [1] ++ List.replicate 61 0
  let c : List Byte := [0, 0, 0, 5, 0, 0, 0, 9, 0, 0, 0, 0, 0, 3]
  h ++ natBE 2 (crc16 h).toNat ++ c ++ natBE 2 (crc16 (c ++ [0, 0])).toNat ++ List.replicate 16 0
def keyed : State := (after (.keyport .hostlink (List.replicate 8 7)) (secure .factory))
def key : List Byte := (List.replicate 8 (7 : Word)).flatMap bytesBE

/-- The fixture port enabled, with a clamp input on pin 0 that is closed (`cl`), a sequence, and what it has reached. -/
def port (cl : Nat) (run : Option SeqKind) (res : Option (BitVec 3)) (st : BitVec 3) : State :=
  { ((opened 7 rdy).setReg 0x07 0x01 1).setReg 0x07 0x08 (BitVec.ofNat 32 (0x50 + cl)) with
    fix := { rdy.fix with running := run, result := res, state := st } }

/-- The clamp opens: channels 0 and 1, of FIX.CHMAP, measured 7 and 3 against a limit of 6. -/
def opening : State :=
  let s := { (port 0x20 none none 2).setReg 0x07 0x10 3 with fix := { (port 0x20 none none 2).fix with seen := true, crLim := 6 } }
  let v (x : Word) (c : Ch) : Ch := { c with meas := { c.meas with cres := x, cresValid := true } }
  (s.modCell 0 (v 7)).modCell 1 (v 3)

/-- The answer of a tag that holds the key. -/
theorem witness_tag_answers : authGood key tag [([1, 2], some (hmac256 key ([1, 2] ++ tag.take 0x40)))] = true := by
  simp [authGood]

theorem witness_FixturePort : (port 0 none none 2).acts .hostlink = true ∧ (port 0 none none 4).acts .hostlink = true
    ∧ (let s := opening
       s.clampMoved = true ∧ s.clampClosed = false ∧ s.fix.running = none ∧ s.contactValues = [7, 3]
         ∧ s.fix.crLim ≠ 0 ∧ s.fix.crLim.toInt < 7 ∧ Calm s)
    ∧ Calm (port 0 none none 2) ∧ Settled (port 0 none none 2) ∧ (port 0 none none 2).fixEn = true
    ∧ (port 0 none none 2).fix.running = none
    ∧ ({ port 0 none none 2 with fix := { (port 0 none none 2).fix with seen := true } } : State).clampMoved = true
    ∧ (port 0 none none 2).clampClosed = true ∧ bit ((port 0 none none 2).reg 7 8) 6 = true
    ∧ SeqKind.clampClose ∉ (port 0 none none 2).fix.waiting
    ∧ ({ port 0x20 (some .plain) none 2 with fix := { (port 0x20 (some .plain) none 2).fix with seen :=
        true } } : State).clampMoved = true
    ∧ (port 0x20 (some .plain) none 2).clampClosed = false ∧ (port 0x20 (some .plain) none 2).fix.running.isSome = true
    ∧ (port 0 (some .plain) none 2).portRuns = true ∧ (port 0 (some .plain) none 2).fix.result = none
    ∧ (⟨none, [], none, []⟩ : TagIn).ups = [] ∧ headerGood (List.replicate 96 0) = false ∧ headerGood tag = true
    ∧ (currentCopy tag).map (fun c => (c.1.cycles, c.1.days, c.2)) = some (9, 3, 0x50) ∧ keyed.secKey = some key
    ∧ (∀ w ∈ keyed.banks.bad, w.1 ≠ .s) ∧ Calm keyed ∧ SeqKind.plain ≠ .clampClose
    ∧ authGood key tag [([1, 2], none)] = false
    ∧ (port 0 (some .plain) (some 2) 0).fix.result = some 2 ∧ (port 0 (some .plain) (some 2) 0).fix.waiting = []
    ∧ (port 0 none none 4).openFor bFix .hostlink = true ∧ bit 0 0 = false ∧ bit 1 0 = true
    ∧ (port 0 none none 4).fix.state = 4 ∧ (0x00000001 : Word).extractLsb' 16 16 = (port 0 none none 4).fix.serial.setWidth 16
    ∧ (port 0 (some .plain) none 2).coreOn = true
    ∧ (let s := { port 0 (some .plain) none 2 with fix := { (port 0 (some .plain) none 2).fix with losses := 15 } }
       Calm s ∧ s.portRuns = true ∧ s.fixEn = true ∧ s.fix.running.isSome = true ∧ 15 ≤ s.fix.losses ∧ s.com[7].capValid = false)
    ∧ (port 0 (some .plain) none 2).fix.losses < 15 ∧ (port 0 none none 2).portRuns = true := by
  and_intros <;> first
    | exact settled_of _ (by decide +kernel) | exact calm_of _ (by decide +kernel) | exact stored_of _ (by decide +kernel)
    | exact gangs_of _ (by decide +kernel) | exact accepts_of _ _ _ (by decide +kernel) | decide +kernel

/-- The management bus with an alert on source 0; HOSTIDLE after 1 unit. -/
def bus (cfg : Word) : State := { (rdy.setReg 0x06 0x08 cfg).setReg 0x06 0x0A 1 with mgmt := { rdy.mgmt with alertSrc := 1 } }

/-- READ_REG of 1 byte and of the last 252 of the address space. -/
theorem witness_MgmtReads : (powered .sleep .sleep false none).mgmtOn = true ∧ (powered .sleep .sleep false none).asleep = true
    ∧ (powered .sleep .sleep false none).pwr.entering = false ∧ (powered .sleep .sleep false none).pwr.waking = none
    ∧ (bus 0x10000).mgmt.cond.getLsbD 5 = false ∧ (bus 0x10000).mgmtOn = true ∧ (bus 0x10000).sys.stage ≠ 0xF0
    ∧ (bus 0x10000).alert = true
    ∧ (0x3FFFF < 2 ^ 18 ∧ 1 ≤ 1 ∧ 1 ≤ 252 ∧ (0x3FFFF + 1 - 1) / 1024 = 0x3FFFF / 1024)
    ∧ (0x3FF04 < 2 ^ 18 ∧ 252 ≤ 252 ∧ (0x3FF04 + 252 - 1) / 1024 = 0x3FF04 / 1024)
    ∧ (bus 0x10000).banks.bad = [] ∧ (bus 0x10000).regF 6 8 16 16 ≠ 0 ∧ (bus 0x10000).coreOn = true
    ∧ rdy.alert = false := by decide +kernel

theorem witness_MgmtWrites : (bus 0).mgmtOn = true ∧ (bus 0).sys.stage ≠ 0xF0 ∧ bit ((bus 0).reg 6 8) 0 = false
    ∧ GangsShare (bus 0) ∧ bit ((bus 0).reg 6 8) 1 = false
    ∧ writeNeed (tx [7, 0, 0, 2, 1, 2, 3, 4] none) ≤ ((tx [7, 0, 0, 2, 1, 2, 3,
      4] none).data ++ (none : Option Byte).toList).length
    ∧ ({ tx [] none with nack := true } : MgmtTx).nack = true ∧ (tx [] none).nack = false
    ∧ Calm (bus 0) ∧ (0x0A : Byte) ∈ [(0x01 : Byte), 0x08, 0x0A] ∧ Settled (bus 0) ∧ bit ((bus 2).reg 6 8) 1 = true
    ∧ bit ((bus 2).reg 6 8) 0 = false ∧ Settled (bus 2) ∧ Calm (bus 2) ∧ Stored (bus 2) ∧ 0x7FFC < 0x8000 ∧ 0x7FFC % 4 = 0 := by
  and_intros <;> first
    | exact settled_of _ (by decide +kernel) | exact calm_of _ (by decide +kernel) | exact stored_of _ (by decide +kernel)
    | exact gangs_of _ (by decide +kernel) | exact accepts_of _ _ _ (by decide +kernel) | decide +kernel

/-- Blocks SEC, FCOL, IO24 and channel 5 open to the host link. -/
def unlocked : State := opened 16 (opened 4 (opened 8 (opened (chB 5) rdy)))

/-- Page 0x40 is the LEAF drawer, 0x41 no page, 0xA0 no page; the last of the ordinary words, BENCH.QWAIT, holds its reset
value, and each LK word too, behind its open lock. -/
theorem witness_RegisterWrites : rdy.acts .hostlink = true ∧ pageBlk (0x08 : Byte).toNat = some bIo24
    ∧ pageBlk (0x02 : Byte).toNat = some bPwr ∧ bit (statusMask bIo24) 7 = true ∧ bit (statusMask bPwr) 1 = true
    ∧ Settled rdy ∧ Calm rdy ∧ pageBlk (0x40 : Byte).toNat = some 52 ∧ (52 : Fin 53) ≠ bIo24
    ∧ (52 : Fin 53) ≠ bPwr ∧ (52 : Fin 53) ≠ bFcol ∧ bit (statusMask 52) 0 = true ∧ Stored rdy ∧ 0x80 ≤ (0x9F : Byte).toNat
    ∧ (0x9F : Byte).toNat < 0xA0 ∧ pageBlk (0x41 : Byte).toNat = none ∧ (0x41 : Byte).toNat < 0x80
    ∧ pageBlk (0xA0 : Byte).toNat = none ∧ 0xA0 ≤ (0xA0 : Byte).toNat
    ∧ rdy.reg 0x0C 0x0B &&& ~~~ 0xFFFFFFFF = 0 ∧ rdy.reg 0x02 0x0A &&& ~~~ 0x00FFFFFF = 0 ∧ rdy.reg 0x02 0x11 &&& ~~~ 0xFFFF = 0
    ∧ rdy.reg 0x25 0x72 &&& ~~~ 0xFFFF = 0 ∧ rdy.reg 0x25 0x76 &&& ~~~ 0xFFFF = 0 ∧ rdy.reg 0x07 0x10 &&& ~~~ 0xFFFFFFFF = 0
    ∧ rdy.reg 0x08 0x11 &&& ~~~ 0xFF = 0 ∧ rdy.reg 0x11 0x09 &&& ~~~ 0xFFFFFFFF = 0 ∧ rdy.reg 0x0B 0x2B &&& ~~~ 0xFFFF = 0
    ∧ unlocked.reg 0x10 0x0A &&& ~~~ 0x71 = 0 ∧ unlocked.openFor bSec .hostlink = true ∧ rdy.openFor bSec .hostlink = false
    ∧ unlocked.reg 0x04 0x0D &&& ~~~ 0xFFFF = 0 ∧ unlocked.openFor bFcol .hostlink = true ∧ rdy.openFor bFcol .hostlink = false
    ∧ unlocked.reg 0x25 0x2D &&& ~~~ 0x03FF03FF = 0 ∧ unlocked.openFor (chB 5) .hostlink = true ∧ rdy.openFor (chB 5) .hostlink = false
    ∧ unlocked.reg 0x08 0x12 &&& ~~~ 0xFF = 0 ∧ unlocked.openFor bIo24 .hostlink = true ∧ rdy.openFor bIo24 .hostlink = false
    ∧ Settled unlocked ∧ Calm unlocked ∧ Stored unlocked ∧ unlocked.acts .hostlink = true := by
  and_intros <;> first
    | exact settled_of _ (by decide +kernel) | exact calm_of _ (by decide +kernel) | exact stored_of _ (by decide +kernel)
    | exact gangs_of _ (by decide +kernel) | exact accepts_of _ _ _ (by decide +kernel) | decide +kernel

theorem witness_ErrCntWrites : rdy.acts .hkcore = true ∧ pageBlk (0x0B : Byte).toNat = some 11 ∧ Settled rdy ∧ Calm rdy := by
  and_intros <;> first
    | exact settled_of _ (by decide +kernel) | exact calm_of _ (by decide +kernel) | exact stored_of _ (by decide +kernel)
    | exact gangs_of _ (by decide +kernel) | exact accepts_of _ _ _ (by decide +kernel) | decide +kernel

/-- The core restarts; the endpoint stands in NAP's deeper states; the bus in OFF. -/
theorem witness_MastersAct : ({ rdy with hk := { rdy.hk with restarting := true } } : State).acts .hkcore = false
    ∧ (powered .doze .doze false none).acts .hostlink = false ∧ (powered .off .off false none).acts .mgmt = false
    ∧ Settled (powered .doze .doze false none) ∧ Calm (powered .doze .doze false none) := by
  and_intros <;> first | exact settled_of _ (by decide +kernel) | exact calm_of _ (by decide +kernel) | decide +kernel

end Sys2Proof.Tests
end

section
/-! SUPPORT. One word that a master writes to a common word of a page, in a commit of its own (02_pages_and_drawers.md): the
commit comes down to that word, and what the word changes stays within the common words of its block. Settles O45 and O59. -/

namespace Sys2Proof.Machine

/-! ### Fields of words -/

theorem testBit_fld (w : Word) (lo n i : Nat) : (fld w lo n).testBit i = (decide (i < n) && w.getLsbD (lo + i)) := by
  rw [fld, Nat.testBit_mod_two_pow, Nat.testBit_shiftRight, BitVec.testBit_toNat]

theorem getLsbD_put (v lo i : Nat) :
    (put v lo).getLsbD i = (decide (i < 32) && (decide (lo ≤ i) && v.testBit (i - lo))) := by
  rw [put, BitVec.getLsbD_shiftLeft, BitVec.getLsbD_ofNat]
  by_cases hi : i < 32
  · have hd : i - lo < 32 := by omega
    have hn : decide (lo ≤ i) = !decide (i < lo) := by simp only [← decide_not, not_lt]
    simp only [hi, hd, hn, decide_true, Bool.true_and]
  · simp only [hi, decide_false, Bool.false_and]

theorem fld_or (a b : Word) (lo n : Nat) : fld (a ||| b) lo n = fld a lo n ||| fld b lo n :=
  Nat.eq_of_testBit_eq fun i => by simp [testBit_fld, Bool.and_or_distrib_left]

/-- The field a number was placed at. -/
theorem fld_put_same {v lo n : Nat} (hv : v < 2 ^ n) (hn : lo + n ≤ 32) : fld (put v lo) lo n = v := by
  refine Nat.eq_of_testBit_eq fun i => ?_
  rw [testBit_fld, getLsbD_put]
  by_cases hi : i < n
  · have : lo + i < 32 := by omega
    simp [hi, this]
  · simp [hi, Nat.testBit_lt_two_pow (lt_of_lt_of_le hv (Nat.pow_le_pow_right (by decide) (not_lt.mp hi)))]

/-- A field below the place of a number. -/
theorem fld_put_below {v l lo n : Nat} (h : lo + n ≤ l) : fld (put v l) lo n = 0 := by
  refine Nat.eq_of_testBit_eq fun i => ?_
  rw [testBit_fld, getLsbD_put]
  by_cases hi : i < n
  · have : ¬ l ≤ lo + i := by omega
    simp [this]
  · simp [hi]

/-- A field above a number that ends below it. -/
theorem fld_put_above {v l lo n : Nat} (h : v < 2 ^ (lo - l)) : fld (put v l) lo n = 0 := by
  refine Nat.eq_of_testBit_eq fun i => ?_
  have hv : v.testBit (lo + i - l) = false :=
    Nat.testBit_lt_two_pow (lt_of_lt_of_le h (Nat.pow_le_pow_right (by decide) (by omega)))
  simp [testBit_fld, getLsbD_put, hv]

/-! ### Quiet operations -/

/-- t keeps what `KeepsRest` names, and is calm and settled where s is. -/
def Quiet (s t : State) : Prop := KeepsRest s t ∧ (Calm s → Calm t) ∧ (Settled s → Settled t)

theorem keepsRest_trans {s t u : State} (h : KeepsRest s t) (k : KeepsRest t u) : KeepsRest s u := by
  obtain ⟨hr, hb, hl, hg, hs⟩ := h
  obtain ⟨kr, kb, kl, kg, ks⟩ := k
  exact ⟨kr.trans hr, fun b a => (kb b a).trans (hb b a), kl.trans hl, kg.trans hg, fun n => (ks n).trans (hs n)⟩

theorem settles_keepsRest {s t : State} (k : Settles s t) : KeepsRest s t :=
  ⟨k.regs, settles_byte k, k.link, k.log, settles_state k⟩

theorem quiet_trans {s t u : State} (h : Quiet s t) (k : Quiet t u) : Quiet s u :=
  ⟨keepsRest_trans h.1 k.1, k.2.1 ∘ h.2.1, k.2.2 ∘ h.2.2⟩

theorem quiet_refl (s : State) : Quiet s s := ⟨⟨rfl, fun _ _ => rfl, rfl, rfl, fun _ => rfl⟩, id, id⟩

theorem modCom_quiet (b : Fin 53) (f : Common → Common) (s : State) : Quiet s (s.modCom b f) :=
  ⟨⟨rfl, fun _ _ => rfl, rfl, rfl, fun _ => rfl⟩, id, id⟩

theorem touchReg_quiet (p o : Nat) (s : State) : Quiet s (touchReg p o s) :=
  ⟨⟨rfl, fun _ _ => rfl, rfl, rfl, fun _ => rfl⟩, id, id⟩

theorem rearmCapture_quiet (c : FClass) (v : Word) (s : State) : Quiet s (rearmCapture c v s) := by
  unfold rearmCapture
  split
  · exact quiet_refl s
  · cases c <;> exact ⟨⟨rfl, fun _ _ => rfl, rfl, rfl, fun _ => rfl⟩, id, id⟩

theorem collide_quiet (c : BitVec 4) (s : State) : Quiet s (collide c s) := by
  unfold collide
  split
  · exact quiet_refl s
  · exact ⟨⟨rfl, fun _ _ => rfl, rfl, rfl, fun _ => rfl⟩, id, id⟩

theorem collideMeeting_quiet (c : BitVec 4) (cs : List Commit) (s : State) : Quiet s (collideMeeting c cs s) := by
  unfold collideMeeting
  split
  · exact quiet_refl s
  · exact quiet_trans (collide_quiet c s) (quiet_trans (modCom_quiet ..) (modCom_quiet ..))

theorem finishWrite_of_settled {s : State} (h : Settled s) : finishWrite 0 [] s = s := by
  simp [finishWrite, resetDue, windowEnds, h.1, h.2]

/-- A command that ends in a quiet state u completes with what u holds, settled. -/
theorem completes_of_quiet {c : Instr} {s u : State} {p : State → Prop} (he : exec c s = done u) (hc : Calm s)
    (hq : Quiet s u) (hp : ∀ t, Settles u t → KeepsRest s t → p t) : Completes c s p := by
  obtain ⟨t, ht, k⟩ := done_completes (hq.2.1 hc)
  exact ⟨t, he.trans ht, hp t k (keepsRest_trans hq.1 (settles_keepsRest k))⟩

/-- A settling operation changes no common word but STATUS. -/
theorem settles_com_field {α : Type} {s t : State} (k : Settles s t) (b : Fin 53) (f : Common → α)
    (hf : ∀ c x, f { c with status := x } = f c) : f t.com[b.val] = f s.com[b.val] := by
  rw [← k.com b]
  exact (hf t.com[b.val] s.com[b.val].status).symm

/-- What f reads of a block's common words, an update that leaves it to every block's words keeps. -/
theorem modCom_com_field {α : Type} (f : Common → α) {g : Common → Common} (hg : ∀ c, f (g c) = f c) (b k : Fin 53)
    (s : State) : f (s.modCom k g).com[b.val] = f s.com[b.val] := by
  by_cases h : b = k
  · subst h
    rw [modCom_same, hg]
  · rw [modCom_other s g h]

/-- A collision changes no common word but STATUS and LOSTCLR. -/
theorem collideMeeting_com_field {α : Type} (f : Common → α)
    (hf : ∀ c x y, f { c with status := x, lostClr := y } = f c) (coll : BitVec 4) (cs : List Commit) (b : Fin 53)
    (s : State) : f (collideMeeting coll cs s).com[b.val] = f s.com[b.val] := by
  have hst (k : Fin 53) (bits : Word) (u : State) : f (raise k bits u).com[b.val] = f u.com[b.val] :=
    modCom_com_field f (fun c => hf c (c.status ||| bits) c.lostClr) b k u
  have hlost (k : Fin 53) (n : Nat) (u : State) : f (lostClears k n u).com[b.val] = f u.com[b.val] :=
    modCom_com_field f (fun c => hf c c.status _) b k u
  unfold collideMeeting
  split
  · rfl
  · rename_i h
    rw [raiseMeeting, loseClears, hlost, hst, collide, if_neg h, raiseBit, hst]

/-! ### One word in a commit of its own -/

theorem pageBlk_blkPage (b : Fin 53) : pageBlk (blkPage b) = some b := by
  unfold pageBlk blkPage
  split
  · simp [*]
  · have h : 32 ≤ b.val + 12 ∧ b.val + 12 ≤ 64 := by omega
    have h' : ¬ b.val + 12 < 20 := by omega
    simp [h, h']

theorem page_lt_of_pageBlk {p : Nat} {b : Fin 53} (h : pageBlk p = some b) : p < 0x80 := by
  by_contra hp
  have h1 : ¬ p < 20 := by omega
  have h2 : ¬ (0x20 ≤ p ∧ p ≤ 0x40) := by omega
  simp [pageBlk, h1, h2] at h

theorem modCom_id (b : Fin 53) (s : State) : (s.modCom b fun c => c) = s := by simp [State.modCom]

theorem lostClears_zero (b : Fin 53) (s : State) : lostClears b 0 s = s := by
  have h (x : Byte) : BitVec.ofNat 8 (min 255 x.toNat) = x := by
    rw [Nat.min_eq_right (by omega), BitVec.ofNat_toNat, BitVec.setWidth_eq]
  unfold lostClears
  simp only [Nat.add_zero, h]
  exact modCom_id b s

theorem popCount_zero : popCount 0#32 = 0 := by decide

theorem wordTurn_le (p o : Nat) : wordTurn p o ≤ 3 := by
  unfold wordTurn
  repeat' split
  all_goals decide

/-- A commit of one word writes it in the turn of the word. -/
theorem writeTurn_single (k : Nat) (m : Master) (p o : Nat) (v : Word) (pre s : State) :
    writeTurn k ⟨m, p, o, [v], false⟩ pre s = if wordTurn p o = k then writeWord false m p o v pre s else s := by
  by_cases h : wordTurn p o = k <;> simp [writeTurn, Commit.words, h]

/-- Of the four turns of a cycle exactly one writes the word. -/
theorem writeTurns_single (m : Master) (p o : Nat) (v : Word) (s : State) :
    let turn (k : Nat) (t : State) := writeTurn k ⟨m, p, o, [v], false⟩ s t
    turn 3 (turn 2 (turn 1 (turn 0 s))) = writeWord false m p o v s s := by
  have h := wordTurn_le p o
  simp only [writeTurn_single]
  generalize wordTurn p o = k at h
  interval_cases k <;> simp

/-- Bits that no commit of a cycle writes at an offset. -/
theorem onesWritten_other {p o o' : Nat} (m : Master) (v : Word) (h : o ≠ o') :
    onesWritten p o' [⟨m, p, o, [v], false⟩] = 0#32 := by
  simp [onesWritten, Commit.words, h]

/-- A word that is neither STATUS nor a pulse latch loses no clear. -/
theorem loseInCycle_single {p o : Nat} (m : Master) (v : Word) (s : State) (h2 : o ≠ 2)
    (hp : p = 3 → o < 0x0C ∨ 0x10 ≤ o) : loseInCycle [⟨m, p, o, [v], false⟩] s = s := by
  have hone : [p].eraseDups = [p] := by simp [List.eraseDups_cons]
  simp only [loseInCycle, List.map_cons, List.map_nil, hone, List.foldl_cons, List.foldl_nil, onesWritten_other m v h2,
    BitVec.zero_and, popCount_zero, lostClears_zero]
  split
  · rfl
  · split
    · rfl
    · have hpulse (w : Nat) (hw : w < 4) : onesWritten p (0x0C + w) [⟨m, p, o, [v], false⟩] = 0#32 :=
        onesWritten_other m v (by have := hp (by omega); omega)
      simp only [hpulse, Nat.reduceLT, BitVec.zero_and, popCount_zero, lostClears_zero]

theorem timeWord_single {o o' : Nat} (v : Word) (h : o ≠ o') : timeWord o [v] o' = none := by
  unfold timeWord
  split
  · exact List.getElem?_eq_none (by simp only [List.length_singleton]; omega)
  · rfl

/-- A word that is no word of TIME loads no time. -/
theorem loadTime_single {p o : Nat} (m : Master) (v : Word) (s : State) (h : p = 1 → o ≠ 8 ∧ o ≠ 9) :
    loadTime ⟨m, p, o, [v], false⟩ s = s := by
  unfold loadTime
  split
  · rename_i hp
    rw [timeWord_single v (h hp).1, timeWord_single v (h hp).2]
    rfl
  · rfl

/-- A commit of one word of a block page or drawer is the write of that word, where it is neither STATUS, a pulse latch nor a word
of TIME. -/
theorem writeOne_eq {m : Master} {p o : Nat} {v : Word} {s : State} {b : Fin 53} (ha : s.acts m = true)
    (hb : pageBlk p = some b) (h2 : o ≠ 2) (ht : p = 1 → o ≠ 8 ∧ o ≠ 9) (hp : p = 3 → o < 0x0C ∨ 0x10 ≤ o) :
    writeOne m p o v s = touchReg p o (writeBlock false m b p o v s s) := by
  have hlow := page_lt_of_pageBlk hb
  have hw : writeWord false m p o v s s = touchReg p o (writeBlock false m b p o v s s) := by
    simp [writeWord, hb, hlow]
  have he (t : State) : countEdition ⟨m, p, o, [v], false⟩ t = t := by simp [countEdition, hlow]
  have hturns := writeTurns_single m p o v s
  simp only [writeOne, writeWords, writeCycle, List.filter_cons, List.filter_nil, ha, if_true, List.foldl_cons,
    List.foldl_nil, insertCommit, he, loadTime_single m v _ ht, loseInCycle_single m v _ h2 hp] at hturns ⊢
  rw [hturns, hw]

/-- IRQ_EN, ERR_CAP, ERR_CNT and LOCK of a page in a commit of their own. -/
theorem writeOne_common {m : Master} {p o : Nat} {v : Word} {s : State} {b : Fin 53} (ha : s.acts m = true)
    (hb : pageBlk p = some b) (ho : 4 ≤ o ∧ o < 8) :
    writeOne m p o v s = touchReg p o (writeCommon m b o v s) := by
  rw [writeOne_eq ha hb (by omega) (by omega) (by omega)]
  simp [writeBlock, ho]

/-! ### Captures and ERR_CAP -/

theorem opReports_nil (s : State) : opReports [] s = s := by
  simp [opReports, reports, takeReports, startReaction]

theorem opCaptureRearm_eq {m : Master} (c : FClass) {s : State} (ha : s.acts m = true) :
    opCaptureRearm m c [] s = touchReg 0x04 (infoOff c) (rearmCapture c 0x80000000 s) := by
  have hb : pageBlk 0x04 = some bFcol := by decide
  have h2 : infoOff c ≠ 2 := by cases c <;> decide
  rw [opCaptureRearm, opReports_nil, writeOne_eq ha hb h2 (fun h => absurd h (by decide)) (fun h => absurd h (by decide))]
  cases c <;> rfl

/-- ERR_CAP re-armed, before an error of the cycle. -/
theorem writeOne_errCap {m : Master} (b : Fin 53) {s : State} (ha : s.acts m = true) :
    writeOne m (blkPage b) 5 0x00800000 s
      = touchReg (blkPage b) 5 (s.modCom b fun c => { c with capValid := false, lostClr := 0 }) := by
  rw [writeOne_common ha (pageBlk_blkPage b) (by decide)]
  rfl

theorem opErrRearm_quiet {m : Master} (b : Fin 53) (detail : Option (BitVec 23)) {s : State} (ha : s.acts m = true) :
    Quiet s (opErrRearm m b detail s) := by
  have h : Quiet s (writeOne m (blkPage b) 5 0x00800000 s) := by
    rw [writeOne_errCap b ha]
    exact quiet_trans (modCom_quiet ..) (touchReg_quiet ..)
  cases detail with
  | none => exact h
  | some d => exact quiet_trans h (modCom_quiet b _ _)

theorem opErrRearm_none_com {m : Master} (b : Fin 53) {s : State} (ha : s.acts m = true) :
    (opErrRearm m b none s).com[b.val] = { s.com[b.val] with capValid := false, lostClr := 0 } := by
  dsimp only [opErrRearm]
  rw [writeOne_errCap b ha, touchReg_com, modCom_same]

theorem opErrRearm_some_com {m : Master} (b : Fin 53) (d : BitVec 23) {s : State} (ha : s.acts m = true) :
    (opErrRearm m b (some d) s).com[b.val]
      = { s.com[b.val] with capValid := true, lostClr := 0, detail := d } := by
  dsimp only [opErrRearm, capErr]
  rw [writeOne_errCap b ha, modCom_same, touchReg_com, modCom_same]
  rfl

/-! ### LOCK -/

theorem lockWrite_quiet (b : Fin 53) (m : Master) (v : Word) (s : State) : Quiet s (lockWrite b m v s) := by
  have hdrop : Quiet s (if bit v 1 then s.modCom b fun c => { c with lkDrop := false } else s) := by
    split
    · exact modCom_quiet b _ s
    · exact quiet_refl s
  unfold lockWrite
  dsimp only
  generalize (if bit v 1 then s.modCom b fun c => { c with lkDrop := false } else s) = u at hdrop ⊢
  refine quiet_trans hdrop ?_
  split
  · exact quiet_refl u
  · split
    · exact modCom_quiet b _ u
    · split
      · split
        · exact quiet_refl u
        · exact modCom_quiet b _ u
      · split
        · exact modCom_quiet b _ u
        · exact quiet_refl u

theorem regWrite_lock {m : Master} {b : Fin 53} (v : Word) {s : State} (ha : s.acts m = true) (hs : Settled s) :
    regWrite m (blkPage b) 7 v s = touchReg (blkPage b) 7 (lockWrite b m v s) := by
  have hq := quiet_trans (lockWrite_quiet b m v s) (touchReg_quiet (blkPage b) 7 _)
  rw [regWrite, writeOne_common ha (pageBlk_blkPage b) (by decide)]
  exact finishWrite_of_settled (hq.2.2 hs)

/-- A write of LOCK completes with what the LOCK word then holds, settled. -/
theorem lock_completes {c : Instr} {s : State} {m : Master} {b : Fin 53} {v : Word} {p : State → Prop}
    (he : exec c s = done (regWrite m (blkPage b) 7 v s)) (ha : s.acts m = true) (hs : Settled s) (hc : Calm s)
    (hp : ∀ t, Settles (touchReg (blkPage b) 7 (lockWrite b m v s)) t → KeepsRest s t → p t) : Completes c s p := by
  rw [regWrite_lock v ha hs] at he
  exact completes_of_quiet he hc (quiet_trans (lockWrite_quiet b m v s) (touchReg_quiet ..)) hp

/-- The key 0x4F50 with the page's own number opens a closed lock for a master that can hold it, and clears BADKEY (R45). -/
theorem lockWrite_open {b : Fin 53} {m : Master} {v : Word} {s : State} (hk : fld v 16 16 = 0x4F50)
    (hp : fld v 8 8 = blkPage b) (hc : s.com[b.val].lockOpen = false) (hm : masterOwner m ≠ 0) :
    (lockWrite b m v s).openFor b m = true ∧ (lockWrite b m v s).com[b.val].badKey = 0 := by
  have hm' : masterOwner m ≠ 0#2 := hm
  cases hv : bit v 1 <;> simp [lockWrite, State.openFor, Common.openFor, hk, hp, hc, hm', hv]

/-- The key 0x434C with the page's own number, written by the owner, closes the lock (R46). -/
theorem lockWrite_close {b : Fin 53} {m : Master} {v : Word} {s : State} (hk : fld v 16 16 = 0x434C)
    (hp : fld v 8 8 = blkPage b) (ho : s.openFor b m = true) :
    (lockWrite b m v s).com[b.val].lockOpen = false ∧ (lockWrite b m v s).com[b.val].owner = 0 := by
  have h : s.com[b.val].lockOpen = true ∧ masterOwner m ≠ 0#2 ∧ s.com[b.val].owner = masterOwner m := by
    simpa [State.openFor, Common.openFor, and_assoc] using ho
  cases hv : bit v 1 <;> simp [lockWrite, closeLock, Common.openFor, hk, hp, h, hv]

/-- Any other key counts in BADKEY and leaves the lock as it is (R47). -/
theorem lockWrite_badKey {b : Fin 53} {m : Master} {v : Word} {s : State} (h0 : fld v 16 16 ≠ 0)
    (ho : fld v 16 16 ≠ 0x4F50) (hc : fld v 16 16 ≠ 0x434C) (hn : s.com[b.val].badKey ≠ 15) :
    (lockWrite b m v s).com[b.val].badKey = s.com[b.val].badKey + 1
      ∧ (lockWrite b m v s).com[b.val].lockOpen = s.com[b.val].lockOpen := by
  have hn' : s.com[b.val].badKey ≠ 15#4 := hn
  cases hv : bit v 1 <;> simp [lockWrite, h0, ho, hc, hn', hv]

theorem opLockAutoClose_quiet (b : Fin 53) (s : State) : Quiet s (opLockAutoClose b s) := by
  unfold opLockAutoClose
  split
  · exact modCom_quiet b _ s
  · exact quiet_refl s

theorem opLockAutoClose_closed (b : Fin 53) (s : State) : (opLockAutoClose b s).com[b.val].lockOpen = false := by
  unfold opLockAutoClose
  split
  · simp [closeLock]
  · simpa using ‹¬ s.com[b.val].lockOpen = true›

/-- Settles O45: each write comes down to its own word, and settling leaves the captures and every common word but STATUS. -/
theorem rearmsAndLocks : Obligations.RearmsAndLocks := by
  intro s m b v ha hs hc
  refine ⟨?_, ?_, fun d => ?_, fun hk hp hl hm => ?_, fun hk hp ho => ?_, fun h0 ho hk hn => ?_, ?_⟩
  · have hq := quiet_trans (rearmCapture_quiet .contained 0x80000000 s) (touchReg_quiet 0x04 0x24 _)
    refine completes_of_quiet (congrArg done (opCaptureRearm_eq .contained ha)) hc hq fun t k r => ?_
    rw [k.fcol]
    exact ⟨by simp [rearmCapture, bit], rfl, rfl, r⟩
  · refine completes_of_quiet (c := .errCapRearm m b none) rfl hc (opErrRearm_quiet b none ha) fun t k r => ?_
    rw [settles_com_field k b Common.capValid fun _ _ => rfl, settles_com_field k b Common.lostClr fun _ _ => rfl,
      opErrRearm_none_com b ha]
    exact ⟨rfl, rfl, r⟩
  · refine completes_of_quiet (c := .errCapRearm m b (some d)) rfl hc (opErrRearm_quiet b _ ha) fun t k r => ?_
    rw [settles_com_field k b Common.capValid fun _ _ => rfl, settles_com_field k b Common.detail fun _ _ => rfl,
      opErrRearm_some_com b d ha]
    exact ⟨rfl, rfl, r⟩
  · refine lock_completes rfl ha hs hc fun t k r => ?_
    obtain ⟨ho, hb⟩ := lockWrite_open hk hp hl hm
    exact ⟨(settles_com_field k b (fun c => c.openFor m) fun _ _ => rfl).trans ho,
      (settles_com_field k b Common.badKey fun _ _ => rfl).trans hb, r⟩
  · refine lock_completes rfl ha hs hc fun t k r => ?_
    obtain ⟨hl, hn⟩ := lockWrite_close hk hp ho
    exact ⟨(settles_com_field k b Common.lockOpen fun _ _ => rfl).trans hl,
      (settles_com_field k b Common.owner fun _ _ => rfl).trans hn, r⟩
  · refine lock_completes rfl ha hs hc fun t k r => ?_
    obtain ⟨hb, hl⟩ := lockWrite_badKey h0 ho hk hn
    exact ⟨(settles_com_field k b Common.badKey fun _ _ => rfl).trans hb,
      (settles_com_field k b Common.lockOpen fun _ _ => rfl).trans hl⟩
  · refine completes_of_quiet (c := .lockAutoClose b) rfl hc (opLockAutoClose_quiet b s) fun t k r => ?_
    exact ⟨(settles_com_field k b Common.lockOpen fun _ _ => rfl).trans (opLockAutoClose_closed b s), r⟩

/-! ### ERR_CNT -/

/-- The ERR_CNT word of the common words c (R42). -/
def errCntWord (c : Common) : Word := put (min c.count 255) 24 ||| put c.thresh.toNat 16 ||| put c.window.toNat 0

theorem readWord_errCnt {p : Nat} {b : Fin 53} (hb : pageBlk p = some b) (s : State) :
    s.readWord p 6 = errCntWord s.com[b.val] := by
  have hlow := page_lt_of_pageBlk hb
  have hn : ¬ (0x80 ≤ p ∧ p < 0xA0) := by omega
  simp [State.readWord, State.readCommon, errCntWord, hb, hn]

theorem fld_errCntWord_thresh (c : Common) : fld (errCntWord c) 16 8 = c.thresh.toNat := by
  have hw : c.window.toNat < 2 ^ (16 - 0) := c.window.isLt
  rw [errCntWord, fld_or, fld_or, fld_put_below (by decide), fld_put_same c.thresh.isLt (by decide), fld_put_above hw,
    Nat.zero_or, Nat.or_zero]

theorem fld_errCntWord_window (c : Common) : fld (errCntWord c) 0 16 = c.window.toNat := by
  rw [errCntWord, fld_or, fld_or, fld_put_below (by decide), fld_put_below (by decide),
    fld_put_same c.window.isLt (by decide), Nat.zero_or, Nat.zero_or]

theorem cntFix_thresh (c : Common) (v : Word) :
    (cntFix c v).thresh.toNat = if fld v 16 8 = 0 then 1 else fld v 16 8 := by
  have hf : fld v 16 8 < 256 := Nat.mod_lt _ (by decide)
  unfold cntFix
  dsimp only
  split
  · rfl
  · exact BitVec.toNat_ofNat .. |>.trans (Nat.mod_eq_of_lt hf)

theorem cntFix_window (c : Common) (v : Word) :
    (cntFix c v).window.toNat
      = if fld v 0 16 = 0 then 1 else if 60000 < fld v 0 16 then 60000 else fld v 0 16 := by
  have hf : fld v 0 16 < 65536 := Nat.mod_lt _ (by decide)
  simp only [cntFix, clampN, BitVec.toNat_ofNat, Nat.lt_one_iff]
  split
  · rfl
  · split
    · rfl
    · exact Nat.mod_eq_of_lt hf

/-- A write of one word that meets no hardware set, report or other write is its commit, and what a collision marks. -/
theorem opRegWrite_single {w : RegWrite} {s : State} (coll : BitVec 4) (ha : s.acts w.m = true) (h2 : w.off ≠ 2) :
    opRegWrite w 0 [] [] coll s
      = collideMeeting coll [oneWord w] (writeOne w.m w.page.toNat w.off.toNat w.v s) := by
  have hoff : w.off ≠ 2#8 := h2
  have hnat : w.off.toNat ≠ 2 := fun e => h2 (BitVec.eq_of_toNat_eq e)
  cases hb : pageBlk w.page.toNat <;> simp [opRegWrite, ha, hb, hoff, hnat, oneWord, writeOne, writeWords, bit]

theorem opRegWrite_errCnt {m : Master} {p : Byte} {b : Fin 53} {v : Word} {s : State} (coll : BitVec 4) (ha : s.acts m = true)
    (hb : pageBlk p.toNat = some b) :
    opRegWrite ⟨m, p, 6, v⟩ 0 [] [] coll s
      = collideMeeting coll [oneWord ⟨m, p, 6, v⟩] (touchReg p.toNat 6 (s.modCom b (cntFix · v))) := by
  have hw : writeOne m p.toNat 6 v s = touchReg p.toNat 6 (s.modCom b (cntFix · v)) := writeOne_common ha hb (by decide)
  rw [← hw]
  exact opRegWrite_single coll ha (show (6 : Byte) ≠ 2 by decide)

theorem opRegWrite_errCnt_quiet {m : Master} {p : Byte} {b : Fin 53} {v : Word} {s : State} (coll : BitVec 4)
    (ha : s.acts m = true) (hb : pageBlk p.toNat = some b) : Quiet s (opRegWrite ⟨m, p, 6, v⟩ 0 [] [] coll s) := by
  rw [opRegWrite_errCnt coll ha hb]
  exact quiet_trans (quiet_trans (modCom_quiet ..) (touchReg_quiet ..)) (collideMeeting_quiet ..)

/-- What f reads of the common words but STATUS and LOSTCLR, after a write of ERR_CNT. -/
theorem opRegWrite_errCnt_com_field {m : Master} {p : Byte} {b : Fin 53} {v : Word} {s : State} {α : Type}
    (f : Common → α) (hf : ∀ c x y, f { c with status := x, lostClr := y } = f c) (coll : BitVec 4)
    (ha : s.acts m = true) (hb : pageBlk p.toNat = some b) :
    f (opRegWrite ⟨m, p, 6, v⟩ 0 [] [] coll s).com[b.val] = f (cntFix s.com[b.val] v) := by
  rw [opRegWrite_errCnt coll ha hb, collideMeeting_com_field f hf, touchReg_com, modCom_same]

/-- Settles O59: the write comes down to `cntFix` of the block's common words, which ERR_CNT reads back field by field. -/
theorem errCntWrites : Obligations.ErrCntWrites := by
  intro s m p b v coll ha hb hs hc
  have hq : Quiet s (opRegWrite ⟨m, p, 6, v⟩ 0 [] [] coll s) := opRegWrite_errCnt_quiet coll ha hb
  refine completes_of_quiet (congrArg done (finishWrite_of_settled (hq.2.2 hs))) hc hq fun t k r => ?_
  have ht : t.com[b.val].thresh = (cntFix s.com[b.val] v).thresh :=
    (settles_com_field k b Common.thresh fun _ _ => rfl).trans
      (opRegWrite_errCnt_com_field Common.thresh (fun _ _ _ => rfl) coll ha hb)
  have hw : t.com[b.val].window = (cntFix s.com[b.val] v).window :=
    (settles_com_field k b Common.window fun _ _ => rfl).trans
      (opRegWrite_errCnt_com_field Common.window (fun _ _ _ => rfl) coll ha hb)
  dsimp only
  rw [readWord_errCnt hb, fld_errCntWord_thresh, fld_errCntWord_window, ht, hw, cntFix_thresh, cntFix_window]
  exact ⟨rfl, rfl, r⟩

end Sys2Proof.Machine
end

section
/-! SUPPORT. The interrupt controller (09_interrupts.md): what its claims, EOIs and pulse latches leave alone and what they
write, and a master's write of one word of its page. Settles O40, O41 and O42. -/

namespace Sys2Proof.Machine

/-! ### Runs over all indices -/

/-- What a run over all indices in order leaves, where P holds up to index b, the step at b turns P into Q, and the later
steps keep Q. -/
theorem foldl_finRange_at {σ : Type} {n : Nat} {f : σ → Fin n → σ} {P Q : σ → Prop} (b : Fin n)
    (before : ∀ x a, a < b → P x → P (f x a)) (here : ∀ x, P x → Q (f x b)) (after : ∀ x a, b < a → Q x → Q (f x a))
    {x : σ} (h : P x) : Q ((List.finRange n).foldl f x) := by
  obtain ⟨pre, post, e⟩ := List.append_of_mem (List.mem_finRange b)
  have hs := (List.sortedLT_finRange n).pairwise
  rw [e, List.pairwise_append, List.pairwise_cons] at hs
  obtain ⟨-, ⟨hpost, -⟩, hpre⟩ := hs
  rw [e, List.foldl_append, List.foldl_cons]
  have hp : P (pre.foldl f x) :=
    List.foldlRecOn (motive := P) pre f h fun y hy a ha => before y a (hpre a ha b List.mem_cons_self) hy
  exact List.foldlRecOn (motive := Q) post f (here _ hp) fun y hy a ha => after y a (hpost a ha) hy

/-! ### Bits of the pulse latches -/

theorem getLsbD_setLatch (l : BitVec 128) (j : Fin 128) {i : Nat} (hi : i < 128) :
    (l ||| BitVec.ofNat 128 1 <<< j.val).getLsbD i = (l.getLsbD i || decide (i = j.val)) := by
  have hone : ((1#128).getLsbD (i - j.val)) = decide (i - j.val = 0) := by simp
  rw [BitVec.getLsbD_or, BitVec.getLsbD_shiftLeft, hone]
  congr 1
  rw [Bool.eq_iff_iff]
  simp only [Bool.and_eq_true, decide_eq_true_eq, Bool.not_eq_true', decide_eq_false_iff_not]
  omega

theorem getLsbD_clearLatch (l : BitVec 128) (j : Fin 128) {i : Nat} (hi : i < 128) :
    (l &&& ~~~ (BitVec.ofNat 128 1 <<< j.val)).getLsbD i = (l.getLsbD i && !decide (i = j.val)) := by
  have hset := getLsbD_setLatch 0#128 j hi
  simp only [BitVec.zero_or, BitVec.getLsbD_zero, Bool.false_or] at hset
  rw [BitVec.getLsbD_and, BitVec.getLsbD_not, hset]
  simp [hi]

/-! ### Operations that write the latches alone -/

theorem quiet_ite {s t u : State} {c : Prop} [Decidable c] (h : Quiet s t) (k : Quiet s u) :
    Quiet s (if c then t else u) := by
  split
  · exact h
  · exact k

theorem quiet_irq (x : Irq) (s : State) : Quiet s { s with irq := x } :=
  ⟨⟨rfl, fun _ _ => rfl, rfl, rfl, fun _ => rfl⟩, id, id⟩

/-- t differs from s at most in the pulse latches and in the common words of the pages. -/
def TouchesLatches (s t : State) : Prop := ∃ l c, t = { s with irq := { s.irq with latch := l }, com := c }

section
variable {s t u : State}

theorem touchesLatches_refl (s : State) : TouchesLatches s s := ⟨s.irq.latch, s.com, rfl⟩

theorem touchesLatches_trans (h : TouchesLatches s t) (k : TouchesLatches t u) : TouchesLatches s u := by
  obtain ⟨l, c, rfl⟩ := h
  obtain ⟨l', c', rfl⟩ := k
  exact ⟨l', c', rfl⟩

theorem touchesLatches_ite {c : Prop} [Decidable c] (h : TouchesLatches s t) (k : TouchesLatches s u) :
    TouchesLatches s (if c then t else u) := by
  split
  · exact h
  · exact k

theorem foldl_touchesLatches {α : Type} {f : State → α → State} (hf : ∀ s a, TouchesLatches s (f s a)) (l : List α)
    (s : State) : TouchesLatches s (l.foldl f s) :=
  foldl_keeps (P := TouchesLatches s) (fun t a h => touchesLatches_trans h (hf t a)) l s (touchesLatches_refl s)

theorem TouchesLatches.quiet (h : TouchesLatches s t) : Quiet s t := by
  obtain ⟨l, c, rfl⟩ := h
  exact ⟨⟨rfl, fun _ _ => rfl, rfl, rfl, fun _ => rfl⟩, id, id⟩

theorem TouchesLatches.stack (h : TouchesLatches s t) : t.irq.stack = s.irq.stack := by
  obtain ⟨l, c, rfl⟩ := h
  rfl

theorem TouchesLatches.claimWord (h : TouchesLatches s t) : t.irq.claimWord = s.irq.claimWord := by
  obtain ⟨l, c, rfl⟩ := h
  rfl

theorem prio_of_regs (h : t.regs = s.regs) (i : Nat) : t.prio i = s.prio i := by
  simp only [State.prio, State.regF, State.reg, h]

theorem TouchesLatches.prio (h : TouchesLatches s t) (i : Nat) : t.prio i = s.prio i := prio_of_regs h.quiet.1.1 i

end

/-- The latch of source i cleared. -/
def clearLatch (i : Fin 128) (s : State) : State :=
  { s with irq := { s.irq with latch := s.irq.latch &&& ~~~ (BitVec.ofNat 128 1 <<< i.val) } }

theorem clearLatch_touchesLatches (i : Fin 128) (s : State) : TouchesLatches s (clearLatch i s) := ⟨_, s.com, rfl⟩

theorem clearLatch_latch (j : Fin 128) (s : State) {i : Nat} (hi : i < 128) :
    (clearLatch j s).irq.latch.getLsbD i = (s.irq.latch.getLsbD i && !decide (i = j.val)) :=
  getLsbD_clearLatch s.irq.latch j hi

theorem irqPulse_touchesLatches (i : Fin 128) (s : State) : TouchesLatches s (irqPulse i s) := by
  unfold irqPulse
  split
  · exact touchesLatches_refl s
  · exact ⟨_, s.com, rfl⟩

/-- An event sets the latch of its source, unless the source is off (R278, R279). -/
theorem irqPulse_latch (j : Fin 128) (s : State) {i : Nat} (hi : i < 128) :
    (irqPulse j s).irq.latch.getLsbD i = (s.irq.latch.getLsbD i || (decide (i = j.val) && decide (s.prio j.val ≠ 0))) := by
  by_cases h : s.prio j.val = 0
  · simp [irqPulse, h]
  · simp [irqPulse, h, getLsbD_setLatch s.irq.latch j hi]

/-! ### The pulse events of a cycle -/

/-- The pulse events of the cycle of a claim, in order. -/
def pulseEvents (events : List (Fin 128)) (s : State) : State :=
  events.foldl (fun s i => if pulseSource i then irqPulse i s else s) s

theorem pulseEvents_touchesLatches (events : List (Fin 128)) (s : State) : TouchesLatches s (pulseEvents events s) :=
  foldl_touchesLatches (fun t i => touchesLatches_ite (irqPulse_touchesLatches i t) (touchesLatches_refl t)) events s

theorem pulseEvents_com (events : List (Fin 128)) (s : State) : (pulseEvents events s).com = s.com :=
  foldl_keeps (P := fun t => t.com = s.com) (fun t i h => by split <;> simp [h]) events s rfl

/-- A source with no event in the cycle keeps its latch. -/
theorem pulseEvents_latch_of_notMem {events : List (Fin 128)} {i : Fin 128} (h : i ∉ events) (s : State) :
    (pulseEvents events s).irq.latch.getLsbD i.val = s.irq.latch.getLsbD i.val := by
  refine List.foldlRecOn (motive := fun t : State => t.irq.latch.getLsbD i.val = s.irq.latch.getLsbD i.val) events _ rfl
    fun t ht j hj => ?_
  have hij : ¬ i.val = j.val := fun e => h (Fin.ext e ▸ hj)
  split
  · rw [irqPulse_latch j t i.isLt, decide_eq_false hij, Bool.false_and, Bool.or_false, ht]
  · exact ht

/-! ### Events of the IRQ page -/

theorem irqEvent_quiet (i id : Nat) (s : State) : Quiet s (irqEvent i id s) :=
  quiet_trans (quiet_trans (modCom_quiet ..) (modCom_quiet ..)) (modCom_quiet ..)

theorem irqEvent_status {i : Nat} (hi : i < 32) (id : Nat) (s : State) :
    bit (irqEvent i id s).com[3].status i = true := by
  have h : (irqEvent i id s).com[bIrq.val].status = s.com[bIrq.val].status ||| bitW i := by
    rw [irqEvent, modCom_same, capErr, modCom_same, raiseBit, ← raise_status]
    split <;> rfl
  have hb : bit (s.com[bIrq.val].status ||| bitW i) i = true := by simp [bit, bitW, hi]
  rw [← h] at hb
  exact hb

/-! ### The claim -/

/-- The state after a claim, IRQ.CLAIM holding the word it returns. -/
def claimed (s : State) : State := { (claim s).2 with irq := { (claim s).2.irq with claimWord := (claim s).1 } }

theorem opClaim_of_works {s : State} (h : s.works dBarf = true) (events : List (Fin 128)) :
    opClaim events s = pulseEvents events (claimed s) := by
  simp only [opClaim, h, if_true]
  rfl

theorem claim_gieOff {s : State} (h : s.gie = false) : claim s = (s.noClaim 0xFF, irqEvent 0 0xFF s) := by
  simp [claim, h]

theorem claim_full {s : State} (h : s.gie = true) (hl : s.irq.stack.length = 8) :
    claim s = (s.noClaim 0xFE, irqEvent 1 0xFE s) := by
  simp [claim, h, hl]

theorem claim_none {s : State} (h : s.gie = true) (hl : s.irq.stack.length ≠ 8) (hc : s.claimable = none) :
    claim s = (s.noClaim 0xFF, irqEvent 0 0xFF s) := by
  simp [claim, h, hl, hc]

/-- The source a claim takes is pushed with its priority, and a pulse source's latch cleared (R283). -/
def served (i : Fin 128) (s : State) : State :=
  { s with irq := { s.irq with
      stack := s.irq.stack ++ [⟨i, BitVec.ofNat 3 (s.prio i.val)⟩]
      latch := if pulseSource i then s.irq.latch &&& ~~~ (BitVec.ofNat 128 1 <<< i.val) else s.irq.latch } }

theorem claim_some {s : State} {i : Fin 128} (h : s.gie = true) (hl : s.irq.stack.length ≠ 8)
    (hc : s.claimable = some i) :
    claim s = (put (s.prio i.val) 12 ||| put (served i s).irq.stack.length 8 ||| put i.val 0, served i s) := by
  simp only [claim, h, hl, hc, Bool.not_true, Bool.false_eq_true, if_false]
  rfl

/-- CLAIM.ID of a word that places the ID below the depth and the priority. -/
theorem id_of_word {id : Nat} (h : id < 256) (w : Word) (n : Nat) (hw : fld w 0 8 = 0) :
    (w ||| put n 8 ||| put id 0).toNat % 256 = id := by
  have e : fld (w ||| put n 8 ||| put id 0) 0 8 = id := by
    rw [fld_or, fld_or, hw, fld_put_below (by decide), fld_put_same h (by decide), Nat.zero_or, Nat.zero_or]
  simpa [fld] using e

theorem noClaim_id {id : Nat} (h : id < 256) (s : State) : (s.noClaim id).toNat % 256 = id := by
  have e := id_of_word h 0 s.irq.stack.length (by decide)
  rwa [show (0 : Word) = 0#32 from rfl, BitVec.zero_or] at e

/-- The better of the best source so far and source i (R283). -/
def State.takeBetter (s : State) (best : Option (Fin 128)) (i : Fin 128) : Option (Fin 128) :=
  if s.eligible i && decide (s.level ≤ s.prio i.val) then
    match best with
    | some b => if s.prio b.val < s.prio i.val then some i else best
    | none => some i
  else best

theorem claimable_eq_foldl (s : State) : s.claimable = (List.finRange 128).foldl s.takeBetter none := rfl

theorem takeBetter_passes {s : State} {j : Fin 128} (h : s.eligible j = true → s.prio j.val < s.level)
    (best : Option (Fin 128)) : s.takeBetter best j = best := by
  refine if_neg fun hj => ?_
  rw [Bool.and_eq_true, decide_eq_true_eq] at hj
  have := h hj.1
  omega

theorem takeBetter_takes {s : State} {i : Fin 128} (he : s.eligible i = true) (hl : s.level ≤ s.prio i.val)
    {best : Option (Fin 128)} (hb : ∀ b ∈ best, s.prio b.val < s.prio i.val) : s.takeBetter best i = some i := by
  cases best with
  | none => simp [State.takeBetter, he, hl]
  | some b => simp [State.takeBetter, he, hl, hb b rfl]

theorem takeBetter_keeps {s : State} {b j : Fin 128} (h : s.eligible j = true → s.prio j.val ≤ s.prio b.val) :
    s.takeBetter (some b) j = some b := by
  by_cases he : s.eligible j = true
  · have : ¬ s.prio b.val < s.prio j.val := by have := h he; omega
    simp [State.takeBetter, this]
  · simp [State.takeBetter, he]

/-- The best source after a step is the one before it or the source of the step. -/
theorem takeBetter_mem {s : State} {best : Option (Fin 128)} {b j : Fin 128} (h : b ∈ s.takeBetter best j) :
    b ∈ best ∨ b = j ∧ s.eligible j = true := by
  unfold State.takeBetter at h
  split at h
  · rename_i hj
    rw [Bool.and_eq_true] at hj
    split at h
    · split at h
      · exact .inr ⟨(Option.mem_some.mp h).symm, hj.1⟩
      · exact .inl h
    · exact .inr ⟨(Option.mem_some.mp h).symm, hj.1⟩
  · exact .inl h

/-- No source is taken where every eligible one lies below the level. -/
theorem claimable_eq_none {s : State} (h : ∀ j : Fin 128, s.eligible j = true → s.prio j.val < s.level) :
    s.claimable = none := by
  rw [claimable_eq_foldl]
  refine List.foldlRecOn (motive := fun best => best = none) _ _ rfl fun best hb j _ => ?_
  rw [takeBetter_passes (h j), hb]

/-- The eligible source of the highest priority and the lowest ID is taken. -/
theorem claimable_eq_some {s : State} {i : Fin 128} (he : s.eligible i = true) (hl : s.level ≤ s.prio i.val)
    (hi : ∀ j : Fin 128, s.eligible j = true → s.prio j.val < s.prio i.val ∨ (s.prio j.val = s.prio i.val ∧ i ≤ j)) :
    s.claimable = some i := by
  rw [claimable_eq_foldl]
  refine foldl_finRange_at (P := fun best => ∀ b ∈ best, s.prio b.val < s.prio i.val) (Q := (· = some i)) i
    (fun best j hj hb b h => ?_) (fun best hb => takeBetter_takes he hl hb) (fun best j _ hb => ?_) (by simp)
  · obtain h | ⟨rfl, he⟩ := takeBetter_mem h
    · exact hb b h
    · exact (hi b he).resolve_right fun h => absurd h.2 (not_le.mpr hj)
  · rw [hb]
    exact takeBetter_keeps fun he => (hi j he).elim le_of_lt fun h => h.1.le

/-! ### The four results of a claim -/

theorem claimed_quiet_of {s u : State} {w : Word} (h : claim s = (w, u)) (hq : Quiet s u) : Quiet s (claimed s) := by
  rw [claimed, h]
  exact quiet_trans hq (quiet_irq _ u)

/-- A claim that leads to a quiet state u and returns w completes there, IRQ.CLAIM holding w, but for the latches that
the events of its cycle set. -/
theorem claim_completes {s u : State} {w : Word} {events : List (Fin 128)} {p : State → Prop} (hw : s.works dBarf = true)
    (hc : Calm s) (h : claim s = (w, u)) (hq : Quiet s u)
    (hp : ∀ t, KeepsRest s t → t.irq.claimWord = w → t.irq.stack = u.irq.stack → t.com[3].status = u.com[3].status →
      (∀ i : Fin 128, i ∉ events → t.irq.latch.getLsbD i.val = u.irq.latch.getLsbD i.val) → p t) :
    Completes (.claim events) s p := by
  have ht := pulseEvents_touchesLatches events (claimed s)
  have hs : (claimed s).irq = { u.irq with claimWord := w } ∧ (claimed s).com = u.com := by simp [claimed, h]
  obtain ⟨hirq, hcom⟩ := hs
  refine completes_of_quiet (c := .claim events) rfl hc
    (by rw [opClaim_of_works hw]; exact quiet_trans (claimed_quiet_of h hq) ht.quiet) fun t k r => ?_
  rw [opClaim_of_works hw] at k
  refine hp t r ?_ ?_ ?_ fun i hi => ?_
  · rw [k.irq, ht.claimWord, hirq]
  · rw [k.irq, ht.stack, hirq]
  · rw [← hcom, ← pulseEvents_com events (claimed s)]
    exact k.status bIrq (by decide) (by decide)
  · rw [k.irq, pulseEvents_latch_of_notMem hi, hirq]

/-- A claim that takes no source returns its code, leaves the stack, and sets its STATUS bit. -/
theorem noClaim_completes {s : State} {id i : Nat} (events : List (Fin 128)) (hw : s.works dBarf = true) (hc : Calm s)
    (hid : id < 256) (hi : i < 32) (h : claim s = (s.noClaim id, irqEvent i id s)) :
    Completes (.claim events) s fun t =>
      t.irq.claimWord.toNat % 256 = id ∧ t.irq.stack = s.irq.stack ∧ bit t.com[3].status i = true ∧ KeepsRest s t := by
  refine claim_completes hw hc h (irqEvent_quiet i id s) fun t r hword hstack hstatus _ => ⟨?_, hstack, ?_, r⟩
  · rw [hword, noClaim_id hid]
  · rw [hstatus, irqEvent_status hi]

theorem prio_lt (s : State) (i : Nat) : s.prio i < 8 := Nat.mod_lt _ (by decide)

theorem active_of_stack_append {t : State} {l : List StackEntry} {i : Fin 128} {p : BitVec 3}
    (h : t.irq.stack = l ++ [⟨i, p⟩]) : t.active i = true := by
  simp [State.active, h]

theorem level_of_stack_append {t : State} {l : List StackEntry} {e : StackEntry} (h : t.irq.stack = l ++ [e]) :
    t.level = e.prio.toNat := by
  simp [State.level, h]

theorem served_latch {i : Fin 128} (h : pulseSource i = true) (s : State) :
    (served i s).irq.latch.getLsbD i.val = false := by
  have e : (served i s).irq.latch = s.irq.latch &&& ~~~ (BitVec.ofNat 128 1 <<< i.val) := if_pos h
  rw [e, getLsbD_clearLatch _ _ i.isLt]
  simp

/-- Settles O40: each row of R283 is one equation of `claim`, and the pulse events of the cycle leave all but the latches. -/
theorem claimServes : Obligations.ClaimServes := by
  intro s events hw hc
  refine ⟨fun hg => ?_, fun hg hl => ?_, fun hg hl hj => ?_, fun i hg hl he hlev hi => ?_⟩
  · exact noClaim_completes events hw hc (by decide) (by decide) (claim_gieOff hg)
  · exact noClaim_completes events hw hc (by decide) (by decide) (claim_full hg hl)
  · exact noClaim_completes events hw hc (by decide) (by decide) (claim_none hg hl (claimable_eq_none hj))
  · have hcl := claim_some hg (by omega) (claimable_eq_some he hlev hi)
    refine claim_completes hw hc hcl (quiet_irq _ s) fun t r hword hstack _ hlatch => ?_
    have hlevel : t.level = s.prio i.val :=
      (level_of_stack_append hstack).trans (Nat.mod_eq_of_lt (prio_lt s i.val))
    refine ⟨?_, hstack, active_of_stack_append hstack, hlevel, fun hp hn => ?_, r⟩
    · rw [hword, id_of_word (by omega) _ _ (fld_put_below (by decide))]
    · rw [hlatch i hn, served_latch hp]

/-! ### EOI -/

theorem eoi_of_none {v : Word} {s : State} (h : s.stackPos (fld v 0 8) = none) : eoi v s = irqEvent 2 (fld v 0 8) s := by
  simp [eoi, h]

/-- The entry at place k of the stack is removed. -/
def popped (k : Nat) (s : State) : State := { s with irq := { s.irq with stack := s.irq.stack.eraseIdx k } }

theorem popped_quiet (k : Nat) (s : State) : Quiet s (popped k s) := quiet_irq _ s

theorem eoi_of_some {v : Word} {s : State} {k : Nat} (h : s.stackPos (fld v 0 8) = some k) :
    eoi v s = if k + 1 = s.irq.stack.length then popped k s else irqEvent 3 (fld v 0 8) (popped k s) := by
  simp [eoi, h, popped]

theorem eoi_quiet (v : Word) (s : State) : Quiet s (eoi v s) := by
  cases h : s.stackPos (fld v 0 8) with
  | none =>
    rw [eoi_of_none h]
    exact irqEvent_quiet ..
  | some k =>
    rw [eoi_of_some h]
    exact quiet_ite (popped_quiet k s) (quiet_trans (popped_quiet k s) (irqEvent_quiet ..))

theorem eoi_stack {v : Word} {s : State} {k : Nat} (h : s.stackPos (fld v 0 8) = some k) :
    (eoi v s).irq.stack = s.irq.stack.eraseIdx k := by
  rw [eoi_of_some h]
  split <;> rfl

/-- In a stack that holds no source twice, the source of an entry is gone with the entry. -/
theorem not_active_of_eraseIdx {s t : State} {x k : Nat} (hs : StackOk s) (hk : s.stackPos x = some k)
    (ht : t.irq.stack = s.irq.stack.eraseIdx k) {i : Fin 128} (hi : i.val = x) : t.active i = false := by
  obtain ⟨hlt, hx, -⟩ := List.findIdx?_eq_some_iff_getElem.mp hk
  rw [State.active, ht, List.any_eq_false]
  intro e he hei
  obtain ⟨j, hj, hjk, rfl⟩ := List.mem_eraseIdx_iff_getElem.mp he
  have hsrc : s.irq.stack[j].src = s.irq.stack[k].src :=
    (of_decide_eq_true hei).trans (Fin.ext (hi.trans (of_decide_eq_true hx).symm))
  refine hjk ((hs.2.getElem_inj_iff (hi := by simpa using hj) (hj := by simpa using hlt)).mp ?_)
  simpa using hsrc

/-! ### Writes of the IRQ page -/

theorem writeOne_of_not_acts {m : Master} (p o : Nat) (v : Word) {s : State} (h : s.acts m = false) :
    writeOne m p o v s = s := by
  simp [writeOne, writeWords, writeCycle, h, loseInCycle]

/-- A write whose commit comes down to a quiet state is that state. -/
theorem regWrite_of_quiet {m : Master} {p o : Nat} {v : Word} {s u : State} (hw : writeOne m p o v s = u)
    (hs : Settled s) (hq : Quiet s u) : regWrite m p o v s = u := by
  rw [regWrite, hw]
  exact finishWrite_of_settled (hq.2.2 hs)

theorem writeOne_irq {m : Master} {o : Nat} (v : Word) {s : State} (ha : s.acts m = true) (h2 : o ≠ 2)
    (hp : o < 0x0C ∨ 0x10 ≤ o) : writeOne m 3 o v s = touchReg 3 o (writeBlock false m bIrq 3 o v s s) :=
  writeOne_eq ha rfl h2 (fun h => absurd h (by decide)) fun _ => hp

theorem writeOne_eoi (m : Master) (v : Word) {s : State} (ha : s.acts m = true) :
    writeOne m 3 9 v s = touchReg 3 9 (if m = .hostlink then eoi v s else s) :=
  writeOne_irq v ha (by decide) (by decide)

theorem writeOne_softset (m : Master) (v : Word) {s : State} (ha : s.acts m = true) :
    writeOne m 3 0x0B v s = touchReg 3 0x0B (softset v s) :=
  writeOne_irq v ha (by decide) (by decide)

theorem regWrite_eoi_hostlink (v : Word) {s : State} (ha : s.acts .hostlink = true) (hs : Settled s) :
    regWrite .hostlink 3 9 v s = touchReg 3 9 (eoi v s) :=
  regWrite_of_quiet (writeOne_eoi .hostlink v ha) hs (quiet_trans (eoi_quiet v s) (touchReg_quiet ..))

/-- An EOI of another master than the host link writes nothing (R286). -/
theorem regWrite_eoi_other {m : Master} (hm : m ≠ .hostlink) (v : Word) {s : State} (hs : Settled s) :
    regWrite m 3 9 v s = if s.acts m then touchReg 3 9 s else s := by
  refine regWrite_of_quiet ?_ hs ?_
  · split
    · rw [writeOne_eoi m v ‹_›, if_neg hm]
    · exact writeOne_of_not_acts 3 9 v (Bool.eq_false_iff.mpr ‹_›)
  · exact quiet_ite (touchReg_quiet ..) (quiet_refl s)

theorem eoi_hostlink_completes {s : State} {v : Word} {p : State → Prop} (ha : s.acts .hostlink = true) (hs : Settled s)
    (hc : Calm s) (hp : ∀ t, KeepsRest s t → t.irq = (eoi v s).irq → t.com[3].status = (eoi v s).com[3].status → p t) :
    Completes (.eoi .hostlink v) s p := by
  refine completes_of_quiet (c := .eoi .hostlink v) (congrArg done (regWrite_eoi_hostlink v ha hs)) hc
    (quiet_trans (eoi_quiet v s) (touchReg_quiet ..)) fun t k r => hp t r k.irq ?_
  exact k.status bIrq (by decide) (by decide)

/-- Settles O41: a write of EOI comes down to `eoi`, which removes the entry `stackPos` finds. -/
theorem eoiReleases : Obligations.EoiReleases := by
  intro s v ha hs hc
  refine ⟨fun k hk => ?_, fun hk => ?_, fun m hm => ?_⟩
  · refine eoi_hostlink_completes ha hs hc fun t r hirq hstatus => ?_
    have hstack : t.irq.stack = s.irq.stack.eraseIdx k := by rw [hirq, eoi_stack hk]
    refine ⟨hstack, fun hn => ?_, r, fun hok i hi => not_active_of_eraseIdx hok hk hstack hi, ?_⟩
    · rw [hstatus, eoi_of_some hk, if_neg hn, irqEvent_status (by decide)]
    · rw [State.level, hstack]
  · refine eoi_hostlink_completes ha hs hc fun t r hirq hstatus => ?_
    rw [eoi_of_none hk] at hirq hstatus
    exact ⟨hirq, by rw [hstatus, irqEvent_status (by decide)], r⟩
  · have hw := regWrite_eoi_other hm v hs
    have hq : Quiet s (regWrite m 3 9 v s) := by
      rw [hw]
      exact quiet_ite (touchReg_quiet ..) (quiet_refl s)
    refine completes_of_quiet (c := .eoi m v) rfl hc hq fun t k r => ⟨?_, r⟩
    rw [k.irq, hw]
    split <;> rfl

/-! ### SOFTSET -/

theorem softset_touchesLatches (v : Word) (s : State) : TouchesLatches s (softset v s) :=
  foldl_touchesLatches (fun t _ => touchesLatches_ite (irqPulse_touchesLatches _ t) (touchesLatches_refl t)) _ s

/-- A bit written 1 sets the latch of its source, where that has a priority. -/
theorem softset_latch {v : Word} {k : Fin 32} {s : State} (hv : bit v k.val = true) (hp : s.prio (96 + k.val) ≠ 0) :
    (softset v s).irq.latch.getLsbD (96 + k.val) = true := by
  have hk : 96 + k.val < 128 := by omega
  refine foldl_finRange_at (P := TouchesLatches s) (Q := fun t => t.irq.latch.getLsbD (96 + k.val) = true) k
    (fun t a _ ht => ?_) (fun t ht => ?_) (fun t a _ ht => ?_) (touchesLatches_refl s)
  · exact touchesLatches_ite (touchesLatches_trans ht (irqPulse_touchesLatches _ t)) ht
  · rw [if_pos hv, irqPulse_latch _ t hk]
    simp [ht.prio, hp]
  · split
    · rw [irqPulse_latch _ t hk, ht, Bool.true_or]
    · exact ht

/-- The latches of the other pulse sources stay. -/
theorem softset_latch_below (v : Word) (s : State) {i : Nat} (hi : i < 96) :
    (softset v s).irq.latch.getLsbD i = s.irq.latch.getLsbD i := by
  refine foldl_keeps (P := fun t : State => t.irq.latch.getLsbD i = s.irq.latch.getLsbD i) (fun t k ht => ?_) _ s rfl
  split
  · have : ¬ i = 96 + k.val := by omega
    rw [irqPulse_latch _ t (by omega), decide_eq_false this, Bool.false_and, Bool.or_false, ht]
  · exact ht

theorem regWrite_softset {m : Master} (v : Word) {s : State} (ha : s.acts m = true) (hs : Settled s) :
    regWrite m 3 0x0B v s = touchReg 3 0x0B (softset v s) :=
  regWrite_of_quiet (writeOne_softset m v ha) hs (quiet_trans (softset_touchesLatches v s).quiet (touchReg_quiet ..))

/-! ### PENDw -/

/-- Source 32w + b, of bit b of PENDw. -/
def pendSource (w : Fin 4) (b : Fin 32) : Fin 128 := ⟨32 * w.val + b.val, by omega⟩

/-- Bit b of a W1C write of PENDw meeting the pulse events of its cycle: the clear, the event, and the lost clear. -/
def pendBit (w : Fin 4) (v events : Word) (s : State) (b : Fin 32) : State :=
  if pulseSource (pendSource w b) && decide (s.prio (pendSource w b).val ≠ 0) then
    let t := if bit v b.val then clearLatch (pendSource w b) s else s
    let u := if bit events b.val then irqPulse (pendSource w b) t else t
    if bit events b.val && bit v b.val then lostClear bIrq u else u
  else s

theorem pendClear_eq_foldl (w : Fin 4) (v events : Word) (s : State) :
    pendClear w v events s = (List.finRange 32).foldl (pendBit w v events) s := rfl

theorem lostClear_touchesLatches (b : Fin 53) (s : State) : TouchesLatches s (lostClear b s) := ⟨s.irq.latch, _, rfl⟩

theorem pendBit_touchesLatches (w : Fin 4) (v events : Word) (s : State) (b : Fin 32) :
    TouchesLatches s (pendBit w v events s b) := by
  have hclear : TouchesLatches s (if bit v b.val then clearLatch (pendSource w b) s else s) :=
    touchesLatches_ite (clearLatch_touchesLatches _ s) (touchesLatches_refl s)
  have hevent := touchesLatches_ite (c := bit events b.val = true)
    (touchesLatches_trans hclear (irqPulse_touchesLatches (pendSource w b) _)) hclear
  exact touchesLatches_ite
    (touchesLatches_ite (touchesLatches_trans hevent (lostClear_touchesLatches bIrq _)) hevent) (touchesLatches_refl s)

theorem pendClear_touchesLatches (w : Fin 4) (v events : Word) (s : State) :
    TouchesLatches s (pendClear w v events s) :=
  foldl_touchesLatches (fun t b => pendBit_touchesLatches w v events t b) _ s

theorem ite_clearLatch_latch (c : Bool) (j : Fin 128) (s : State) {i : Nat} (hi : i < 128) :
    (if c then clearLatch j s else s).irq.latch.getLsbD i = (s.irq.latch.getLsbD i && !(c && decide (i = j.val))) := by
  cases c
  · rw [Bool.false_and, Bool.not_false, Bool.and_true]
    rfl
  · rw [Bool.true_and]
    exact clearLatch_latch j s hi

theorem ite_irqPulse_latch (c : Bool) {j : Fin 128} {s : State} (hn : s.prio j.val ≠ 0) {i : Nat} (hi : i < 128) :
    (if c then irqPulse j s else s).irq.latch.getLsbD i = (s.irq.latch.getLsbD i || (c && decide (i = j.val))) := by
  cases c
  · rw [Bool.false_and, Bool.or_false]
    rfl
  · rw [Bool.true_and, if_pos rfl, irqPulse_latch j s hi, decide_eq_true hn, Bool.and_true]

/-- The latch of the bit's own source, where it is a pulse source that is on: an event wins over a clear (R292). -/
theorem pendBit_latch {w : Fin 4} {b : Fin 32} {s : State} (v events : Word)
    (hp : pulseSource (pendSource w b) = true) (hn : s.prio (pendSource w b).val ≠ 0) {i : Nat} (hi : i < 128) :
    (pendBit w v events s b).irq.latch.getLsbD i
      = (s.irq.latch.getLsbD i && !(bit v b.val && decide (i = (pendSource w b).val))
          || (bit events b.val && decide (i = (pendSource w b).val))) := by
  have hprio : (if bit v b.val then clearLatch (pendSource w b) s else s).prio (pendSource w b).val ≠ 0 := by
    rwa [(touchesLatches_ite (clearLatch_touchesLatches _ s) (touchesLatches_refl s)).prio]
  have hlost (c : Bool) (t : State) : (if c then lostClear bIrq t else t).irq = t.irq := by
    cases c <;> rfl
  rw [← ite_clearLatch_latch _ _ s hi, ← ite_irqPulse_latch _ hprio hi, pendBit, if_pos (by simp [hp, hn]), hlost]

/-- The latches of the other sources stay. -/
theorem pendBit_latch_other {w : Fin 4} {b : Fin 32} {i : Nat} (v events : Word) (s : State) (hi : i < 128)
    (h : i ≠ (pendSource w b).val) :
    (pendBit w v events s b).irq.latch.getLsbD i = s.irq.latch.getLsbD i := by
  by_cases hg : pulseSource (pendSource w b) = true ∧ s.prio (pendSource w b).val ≠ 0
  · rw [pendBit_latch v events hg.1 hg.2 hi, decide_eq_false h, Bool.and_false, Bool.and_false, Bool.not_false,
      Bool.and_true, Bool.or_false]
  · rw [pendBit, if_neg (by simpa using hg)]

theorem pendClear_latch {w : Fin 4} {b : Fin 32} {s : State} (v events : Word)
    (hp : pulseSource (pendSource w b) = true) (hn : s.prio (pendSource w b).val ≠ 0) :
    (pendClear w v events s).irq.latch.getLsbD (pendSource w b).val
      = (bit events b.val || (s.irq.latch.getLsbD (pendSource w b).val && !bit v b.val)) := by
  have hother (t : State) {a : Fin 32} (h : a ≠ b) :
      (pendBit w v events t a).irq.latch.getLsbD (pendSource w b).val = t.irq.latch.getLsbD (pendSource w b).val :=
    pendBit_latch_other v events t (pendSource w b).isLt fun e => h (Fin.ext (Nat.add_left_cancel e).symm)
  rw [pendClear_eq_foldl]
  refine foldl_finRange_at
    (P := fun t => TouchesLatches s t ∧
      t.irq.latch.getLsbD (pendSource w b).val = s.irq.latch.getLsbD (pendSource w b).val)
    (Q := fun t => t.irq.latch.getLsbD (pendSource w b).val
      = (bit events b.val || (s.irq.latch.getLsbD (pendSource w b).val && !bit v b.val))) b
    (fun t a ha ht => ⟨touchesLatches_trans ht.1 (pendBit_touchesLatches w v events t a), ?_⟩) (fun t ht => ?_)
    (fun t a ha ht => ?_) ⟨touchesLatches_refl s, rfl⟩
  · rw [hother t ha.ne, ht.2]
  · rw [pendBit_latch v events hp (by rwa [ht.1.prio]) (pendSource w b).isLt, ht.2, decide_eq_true rfl, Bool.and_true,
      Bool.and_true, Bool.or_comm]
  · rw [hother t ha.ne', ht]

theorem clearPend_of_acts {m : Master} (w : Fin 4) (v events : Word) {s : State} (ha : s.acts m = true) :
    clearPend m w v events s = touchReg 3 (0x0C + w.val) (pendClear w v events s) := if_pos ha

/-- A command that ends in a change of the latches, and no more than the marks of a write, completes with those latches. -/
theorem touchesLatches_completes {c : Instr} {s u : State} {o : Nat} {p : State → Prop}
    (he : exec c s = done (touchReg 3 o u)) (hc : Calm s) (hu : TouchesLatches s u)
    (hp : ∀ t, t.irq.latch = u.irq.latch → t.irq.stack = s.irq.stack → KeepsRest s t → p t) : Completes c s p :=
  completes_of_quiet he hc (quiet_trans hu.quiet (touchReg_quiet ..)) fun t k r =>
    hp t (congrArg Irq.latch k.irq) ((congrArg Irq.stack k.irq).trans hu.stack) r

/-! ### CTRL, MASKw and PRIOw -/

/-- The write of a stored word without LK fields, whether the lock is open or not. -/
theorem writeStored_of_noLk (ok : Bool) (b : Fin 53) (p o : Nat) (r rw v : Word) (s : State) :
    writeStored ok b p o ⟨r, rw, 0⟩ v s = s.setReg p o (regFix p o (s.reg p o) (mix (s.reg p o) v rw)) := by
  cases ok <;> simp [writeStored]

theorem irqReg_mask (w : Fin 4) : irqReg (0x10 + w.val) = some ⟨0, 0xFFFFFFFF, 0⟩ := by
  rw [irqReg, if_neg (by omega), if_pos (by omega)]

theorem irqReg_prio (w : Fin 16) : irqReg (0x20 + w.val) = some ⟨0, 0x77777777, 0⟩ := by
  rw [irqReg, if_neg (by omega), if_neg (by omega), if_pos (by omega)]

/-- The stored words of the page are no words with an action, and no common words. -/
theorem irqReg_offset {o : Nat} {i : RegInfo} (h : irqReg o = some i) :
    o = 1 ∨ (0x10 ≤ o ∧ o ≤ 0x13) ∨ (0x20 ≤ o ∧ o ≤ 0x2F) := by
  unfold irqReg at h
  split at h
  · exact .inl ‹_›
  · split at h
    · exact .inr (.inl ‹_›)
    · split at h
      · exact .inr (.inr ‹_›)
      · cases h

theorem writeIrq_stored (m : Master) {o : Nat} (v : Word) (s : State)
    (h : o = 1 ∨ (0x10 ≤ o ∧ o ≤ 0x13) ∨ (0x20 ≤ o ∧ o ≤ 0x2F)) : writeIrq m o v s = none := by
  unfold writeIrq
  split
  case h_7 => rfl
  all_goals omega

/-- The state after a write of a stored word of the page, of which no field is LK. -/
def irqStored (o : Nat) (v rw : Word) (s : State) : State := afterStored 3 o s (s.setReg 3 o (mix (s.reg 3 o) v rw))

theorem writeBlock_irqStored (m : Master) {o : Nat} {r rw : Word} (v : Word) (s : State)
    (h : irqReg o = some ⟨r, rw, 0⟩) : writeBlock false m bIrq 3 o v s s = irqStored o v rw s := by
  have ho := irqReg_offset h
  have hcommon : ¬ (o = 2 ∨ (4 ≤ o ∧ o < 8)) := by omega
  have haction (ok : Bool) : writeAction ok m 3 o v s s = none := writeIrq_stored m v s ho
  have hinfo : regInfo 3 o = some ⟨r, rw, 0⟩ := h
  have hfix (old x : Word) : regFix 3 o old x = x := rfl
  simp only [writeBlock, hcommon, if_false, haction, hinfo, writeStored_of_noLk, hfix]
  rfl

theorem irqStored_prio (w : Fin 16) (v rw : Word) (s : State) :
    irqStored (0x20 + w.val) v rw s
      = prioLatches (s.setReg 3 (0x20 + w.val) (mix (s.reg 3 (0x20 + w.val)) v rw)) := by
  have h : 0x20 ≤ 0x20 + w.val ∧ 0x20 + w.val < 0x30 := by omega
  exact if_pos h

theorem irqStored_of_lt {o : Nat} (v rw : Word) (s : State) (h : o < 0x20) :
    irqStored o v rw s = s.setReg 3 o (mix (s.reg 3 o) v rw) := by
  have h : ¬ (0x20 ≤ o ∧ o < 0x30) := by omega
  exact if_neg h

/-- What follows a stored word of the page touches the latches alone. -/
theorem irqStored_touchesLatches (o : Nat) (v rw : Word) (s : State) :
    TouchesLatches (s.setReg 3 o (mix (s.reg 3 o) v rw)) (irqStored o v rw s) :=
  touchesLatches_ite ⟨_, _, rfl⟩ (touchesLatches_refl _)

theorem calm_setReg_irq {s : State} {o : Nat} (v : Word) (ho : o < 256) (hc : Calm s) (hst : Stored s) :
    Calm (s.setReg 3 o v) := by
  have hkey : regKey 0x10 1 ≠ regKey 3 o := by unfold regKey; omega
  obtain ⟨huv, hlid, hrx⟩ := hc
  exact ⟨huv, by rwa [reg_setReg_other s hst.2 hkey], hrx⟩

/-- A write of a stored word completes with the word, its bits but the RW ones as before. -/
theorem irqStored_completes {c : Instr} {s : State} {m : Master} {o : Nat} {v r rw : Word} {p : State → Prop}
    (he : exec c s = done (regWrite m 3 o v s)) (hi : irqReg o = some ⟨r, rw, 0⟩) (ha : s.acts m = true) (hs : Settled s)
    (hc : Calm s) (hst : Stored s)
    (hp : ∀ t, t.reg 3 o = mix (s.reg 3 o) v rw → t.regs = (irqStored o v rw s).regs → t.irq = (irqStored o v rw s).irq →
      t.irq.stack = s.irq.stack → SameStates s t → SameBytes s t → p t) : Completes c s p := by
  have ho := irqReg_offset hi
  have hq := (irqStored_touchesLatches o v rw s).quiet
  have hcalm : Calm (irqStored o v rw s) := hq.2.1 (calm_setReg_irq _ (by omega) hc hst)
  have hset : Settled (irqStored o v rw s) := hq.2.2 hs
  have hw : regWrite m 3 o v s = touchReg 3 o (irqStored o v rw s) := by
    rw [regWrite, writeOne_irq v ha (by omega) (by omega), writeBlock_irqStored m v s hi]
    exact finishWrite_of_settled hset
  obtain ⟨t, ht, k⟩ := done_completes (s := touchReg 3 o (irqStored o v rw s)) hcalm
  obtain ⟨hregs, hbytes, -, -, hstates⟩ := hq.1
  refine ⟨t, by rw [he, hw, ht], hp t ?_ k.regs k.irq ?_ (fun n => ?_) fun b a => ?_⟩
  · rw [State.reg, k.regs, touchReg_regs, hregs]
    exact reg_setReg s hst.2
  · rw [k.irq]
    exact (irqStored_touchesLatches o v rw s).stack
  · exact (settles_state k n).trans (hstates n)
  · exact (settles_byte k b a).trans (hbytes b a)

/-- A pulse source of priority 0 has no latch (R279, R293). -/
theorem prioLatches_latch {s : State} {i : Fin 128} (hp : pulseSource i = true) (hn : s.prio i.val = 0) :
    (prioLatches s).irq.latch.getLsbD i.val = false := by
  refine foldl_finRange_at (P := fun _ => True) (Q := fun l : BitVec 128 => l.getLsbD i.val = false) i
    (fun _ _ _ _ => trivial) (fun l _ => ?_) (fun l j _ hl => ?_) trivial
  · simp only [hp, hn, decide_true, Bool.and_self, if_true]
    rw [getLsbD_clearLatch l i i.isLt, decide_eq_true rfl, Bool.not_true, Bool.and_false]
  · split
    · rw [getLsbD_clearLatch l j i.isLt, hl, Bool.false_and]
    · exact hl

theorem mix_full (old v : Word) : mix old v 0xFFFFFFFF = v := by
  have h : (0xFFFFFFFF : Word) = BitVec.allOnes 32 := rfl
  rw [mix, h, BitVec.not_allOnes, BitVec.and_zero, BitVec.zero_or, BitVec.and_allOnes]

theorem bit_mix_bit0 (old v : Word) : bit (mix old v 1) 0 = bit v 0 := by
  simp [mix, bit]

/-- Settles O42: SOFTSET and PENDw touch the latches alone, CTRL, MASKw and PRIOw are stored words. -/
theorem irqRegisters : Obligations.IrqRegisters := by
  intro s m v ha hs hc hst
  refine ⟨?_, fun w events => ?_, ?_, fun w => ?_, fun w => ?_⟩
  · refine touchesLatches_completes (congrArg done (regWrite_softset v ha hs)) hc (softset_touchesLatches v s)
      fun t hl hk r => ⟨fun k hv hn => ?_, fun i hi => ?_, hk, r⟩
    · rw [hl, softset_latch hv hn]
    · rw [hl, softset_latch_below v s hi]
  · refine touchesLatches_completes (congrArg done (clearPend_of_acts w v events ha)) hc
      (pendClear_touchesLatches w v events s) fun t hl hk r => ⟨fun b i hi hp hn => ?_, hk, r⟩
    obtain rfl : i = pendSource w b := Fin.ext hi
    rw [hl, pendClear_latch v events hp hn]
  · refine irqStored_completes (c := .gieWrite m v) rfl (show irqReg 1 = some ⟨0, 1, 0⟩ from rfl) ha hs hc hst
      fun t hreg _ hirq _ hstates hbytes => ⟨?_, ?_, hstates, hbytes⟩
    · rw [State.gie, hreg, bit_mix_bit0]
    · rw [hirq, irqStored_of_lt v 1 s (by decide), setReg_irq]
  · refine irqStored_completes (c := .prioWrite m w v) rfl (irqReg_prio w) ha hs hc hst
      fun t hreg hregs hirq hk hstates hbytes => ⟨hreg, fun i hp hn => ?_, hk, hstates, hbytes⟩
    rw [prio_of_regs hregs] at hn
    rw [irqStored_prio] at hn hirq
    rw [hirq]
    exact prioLatches_latch hp hn
  · refine irqStored_completes (c := .maskWrite m w v) rfl (irqReg_mask w) ha hs hc hst
      fun t hreg _ hirq _ hstates hbytes => ⟨?_, ?_, hstates, hbytes⟩
    · rw [hreg, mix_full]
    · rw [hirq, irqStored_of_lt v _ s (by omega), setReg_irq]

end Sys2Proof.Machine
end

section
/-! SUPPORT. What the reactions of the device leave of a state, in whatever state a command ends: the stops of channels, the resets
of blocks and the wipe write no register, no bank but the capture bank and BANK-S, and no word of the management bus but those of
its last transaction. -/

namespace Sys2Proof.Machine

/-- Channel n is in SAFE or FAULT. -/
def State.halted (s : State) (n : Chan) : Prop := (s.cell n).seq.state = .safe ∨ (s.cell n).seq.state = .fault

/-- A channel whose leader is in SAFE or FAULT is there too. -/
def HaltsShared (s : State) : Prop := ∀ n : Chan, s.halted (s.leader n) → s.halted n

/-- t differs from s at most in what a reaction writes: no register, no byte but the capture bank's and, where the lid trigger is
enabled, BANK-S's, of the management bus only what the last transaction answered; no STATUS bit of its page clears, and no channel
leaves SAFE or FAULT. -/
structure Reacts (s t : State) : Prop where
  regs : t.regs = s.regs
  cells : ∀ b, b ≠ .c → (b = .s → bit (s.reg 0x10 0x01) 1 = false) → t.banks.cells b = s.banks.cells b
  mgmt : { t.mgmt with out := s.mgmt.out, ack := s.mgmt.ack, stretch := s.mgmt.stretch } = s.mgmt
  status : ∀ i, bit s.com[6].status i = true → bit t.com[6].status i = true
  halted : ∀ n, s.halted n → t.halted n
  shared : HaltsShared s → HaltsShared t

/-! ### Gangs -/

theorem leader_of_regs {s t : State} (h : t.regs = s.regs) (n : Chan) : t.leader n = s.leader n := by
  have e : t.leader n = ({ s with regs := t.regs } : State).leader n := rfl
  rw [e, h]

theorem mem_groupOf {s : State} {n k : Chan} : k ∈ s.groupOf n ↔ k.val / s.gangSize n = n.val / s.gangSize n := by
  simp [State.groupOf, allChans]

/-- The members of a formed gang agree on it. -/
theorem formed_of_mem {s : State} {n k : Chan} (hf : s.formed n = true) (hk : k ∈ s.groupOf n) :
    s.formed k = true ∧ s.groupOf k = s.groupOf n := by
  obtain ⟨hg, ha⟩ : 1 < s.gangSize n ∧ ∀ j ∈ s.groupOf n, s.gangSize j = s.gangSize n := by
    simpa [State.formed, State.agrees] using hf
  have hs : s.gangSize k = s.gangSize n := ha k hk
  have hgroup : s.groupOf k = s.groupOf n := by simp only [State.groupOf, hs, mem_groupOf.mp hk]
  refine ⟨?_, hgroup⟩
  rw [State.formed, State.agrees, hgroup, hs]
  simpa [hg] using ha

theorem leader_mem {s : State} {n : Chan} (hf : s.formed n = true) : s.leader n ∈ s.groupOf n := by
  have hn : n ∈ s.groupOf n := mem_groupOf.mpr rfl
  obtain ⟨a, l, hl⟩ := List.exists_cons_of_ne_nil (List.ne_nil_of_mem hn)
  rw [State.leader, if_pos hf, hl]
  exact List.mem_cons_self

/-- A command of the leader acts on every channel it leads. -/
theorem mem_gangOf_leader (s : State) (n : Chan) : n ∈ s.gangOf (s.leader n) := by
  by_cases hf : s.formed n = true
  · obtain ⟨hl, hg⟩ := formed_of_mem hf (leader_mem hf)
    rw [State.gangOf, if_pos hl, hg]
    exact mem_groupOf.mpr rfl
  · rw [State.leader, if_neg hf, State.gangOf, if_neg hf]
    exact List.mem_singleton_self n

/-- The channels of a gang have its leader. -/
theorem leader_of_mem_gangOf {s : State} {n k : Chan} (hk : k ∈ s.gangOf n) : s.leader k = s.leader n := by
  by_cases hf : s.formed n = true
  · rw [State.gangOf, if_pos hf] at hk
    obtain ⟨hfk, hg⟩ := formed_of_mem hf hk
    rw [State.leader, State.leader, if_pos hfk, if_pos hf, hg]
    obtain ⟨a, l, hl⟩ := List.exists_cons_of_ne_nil (List.ne_nil_of_mem hk)
    simp [hl]
  · rw [State.gangOf, if_neg hf, List.mem_singleton] at hk
    rw [hk]

theorem leader_leader (s : State) (n : Chan) : s.leader (s.leader n) = s.leader n :=
  (leader_of_mem_gangOf (mem_gangOf_leader s n)).symm

/-! ### Rules of `Reacts` -/

theorem Reacts.refl (s : State) : Reacts s s := ⟨rfl, fun _ _ _ => rfl, rfl, fun _ h => h, fun _ h => h, id⟩

section
variable {s t u : State}

theorem Reacts.trans (h : Reacts s t) (k : Reacts t u) : Reacts s u where
  regs := k.regs.trans h.regs
  cells b hc hs := (k.cells b hc fun e => by rw [State.reg, h.regs]; exact hs e).trans (h.cells b hc hs)
  mgmt := by have a := h.mgmt; rw [← k.mgmt] at a; exact a
  status i hi := k.status i (h.status i hi)
  halted n hn := k.halted n (h.halted n hn)
  shared := k.shared ∘ h.shared

/-- What f reads of the management bus but the answer to its last transaction. -/
theorem Reacts.mgmt_field {α : Type} (h : Reacts s t) (f : Mgmt → α)
    (hf : ∀ m o a x, f { m with out := o, ack := a, stretch := x } = f m) : f t.mgmt = f s.mgmt := by
  rw [← h.mgmt]
  exact (hf ..).symm

/-- Channels that keep their STATE keep what their leaders share. -/
theorem haltsShared_of_states (hr : t.regs = s.regs) (hs : SameStates s t) (h : HaltsShared s) : HaltsShared t := by
  intro n hn
  rw [State.halted, hs, leader_of_regs hr] at hn
  rw [State.halted, hs]
  exact h n hn

/-- What keeps the stores, the management bus and every STATE, and clears no STATUS bit of the MGMT page. -/
theorem reacts_of_states (hr : t.regs = s.regs) (hb : t.banks = s.banks) (hm : t.mgmt = s.mgmt)
    (hi : ∀ i, bit s.com[6].status i = true → bit t.com[6].status i = true) (hs : SameStates s t) : Reacts s t :=
  ⟨hr, fun _ _ _ => by rw [hb], by rw [hm], hi, fun n hn => by rw [State.halted, hs]; exact hn, haltsShared_of_states hr hs⟩

/-- What keeps the common words and the drawers too. -/
theorem reacts_of_eq (hr : t.regs = s.regs) (hb : t.banks = s.banks) (hm : t.mgmt = s.mgmt) (hc : t.com = s.com)
    (hs : t.ch = s.ch) : Reacts s t :=
  reacts_of_states hr hb hm (fun i h => by rw [hc]; exact h) fun n => by rw [State.cell, hs, State.cell]

theorem reacts_ite {c : Prop} [Decidable c] (h : Reacts s t) (k : Reacts s u) : Reacts s (if c then t else u) := by
  split
  · exact h
  · exact k

theorem foldl_reacts {α : Type} {f : State → α → State} (hf : ∀ s a, Reacts s (f s a)) (l : List α) (s : State) :
    Reacts s (l.foldl f s) := foldl_keeps (P := Reacts s) (fun t a h => h.trans (hf t a)) l s (Reacts.refl s)

theorem forChans_reacts {f : Chan → State → State} (hf : ∀ n s, Reacts s (f n s)) (l : List Chan) (s : State) :
    Reacts s (forChans l f s) := foldl_reacts (fun s n => hf n s) l s

end

/-! ### Updates of one word, drawer or pin -/

section
variable {s t : State}

theorem Reacts.modCom (h : Reacts s t) {b : Fin 53} {f : Common → Common}
    (hf : ∀ c i, bit c.status i = true → bit (f c).status i = true) : Reacts s (t.modCom b f) := by
  refine h.trans (reacts_of_states rfl rfl rfl (fun i h => ?_) fun _ => rfl)
  by_cases hb : bMgmt = b
  · subst hb
    exact (congrArg (fun c : Common => bit c.status i) (modCom_same t bMgmt f)).trans (hf _ _ h)
  · exact (congrArg (fun c : Common => bit c.status i) (modCom_other t f hb)).trans h

theorem Reacts.raise (h : Reacts s t) {b : Fin 53} {bits : Word} : Reacts s (raise b bits t) :=
  h.modCom fun c i h => by
    rw [bit] at h ⊢
    rw [BitVec.getLsbD_or, h, Bool.true_or]

theorem Reacts.raiseBit (h : Reacts s t) {b : Fin 53} {i : Nat} : Reacts s (raiseBit b i t) := h.raise

theorem Reacts.raiseIf (h : Reacts s t) {c : Bool} {b : Fin 53} {i : Nat} : Reacts s (raiseIf c b i t) :=
  reacts_ite h.raiseBit h

theorem Reacts.capErr (h : Reacts s t) {b : Fin 53} {d : BitVec 23} : Reacts s (capErr b d t) :=
  h.modCom fun c i h => by split <;> exact h

theorem Reacts.closeLock (h : Reacts s t) {b : Fin 53} : Reacts s (closeLock b t) := h.modCom fun _ _ h => h

/-- An update of a drawer that leaves its STATE. -/
theorem Reacts.modCell (h : Reacts s t) {n : Chan} {f : Ch → Ch} (hf : ∀ c, (f c).seq.state = c.seq.state) :
    Reacts s (t.modCell n f) := by
  refine h.trans (reacts_of_states (by simp) (by simp) (by simp) (fun i h => h) fun k => ?_)
  by_cases hk : k = n
  · subst hk
    rw [cell_modCell, hf]
  · rw [cell_modCell_other t f hk]

theorem Reacts.modSeq (h : Reacts s t) {n : Chan} {f : Seq → Seq} (hf : ∀ q, (f q).state = q.state) :
    Reacts s (t.modSeq n f) :=
  h.modCell fun c => hf c.seq

theorem Reacts.modPs (h : Reacts s t) {n : Chan} {f : Stage → Stage} : Reacts s (t.modPs n f) := h.modCell fun _ => rfl

theorem Reacts.modPin (h : Reacts s t) {k : Fin 8} {f : Pin → Pin} : Reacts s (t.modPin k f) :=
  h.trans (reacts_of_eq rfl rfl rfl rfl rfl)

end

section
variable (s : State)

theorem putSlot_reacts (n : Chan) (w : Nat) (v : Word) : Reacts s (putSlot n w v s) where
  regs := rfl
  cells b hb _ := by
    rw [putSlot, State.putWord, State.putBytes]
    dsimp only
    rw [cells_put, if_neg hb.symm, cells_heal]
    rfl
  mgmt := rfl
  status _ h := h
  halted _ h := h
  shared h := h

/-! ### The end of a step -/

theorem dropUse_reacts (n : Chan) : Reacts s (dropUse n s) := by
  unfold dropUse
  split
  · exact Reacts.refl s
  · refine Reacts.raiseBit ?_
    exact reacts_of_eq rfl rfl rfl rfl rfl

theorem endUse_reacts (n : Chan) : Reacts s (endUse n s) := reacts_ite (dropUse_reacts s n) (Reacts.refl s)

theorem endCapture_reacts (n : Chan) : Reacts s (endCapture n s) := by
  unfold endCapture
  dsimp only
  split
  · exact Reacts.refl s
  · have h : Reacts s { s with cap := { s.cap with armed := s.cap.armed &&& ~~~ bitW n.val } } :=
      reacts_of_eq rfl rfl rfl rfl rfl
    split
    · exact reacts_ite (h.trans (endUse_reacts _ n)) h
    · exact h

theorem endSweep_reacts (n : Chan) : Reacts s (endSweep n s) := by
  unfold endSweep
  dsimp only
  split
  · exact Reacts.refl s
  · split
    · exact (Reacts.refl s).modCell fun _ => rfl
    · generalize hq : State.modCell n _ s = q
      have h : Reacts s q := by
        rw [← hq]
        exact (Reacts.refl s).modCell fun _ => rfl
      split
      · exact reacts_ite ((h.trans (putSlot_reacts q n 0 _)).trans (endUse_reacts _ n)) h
      · exact h

theorem endDcir_reacts (n : Chan) (inside complete : Bool) : Reacts s (endDcir n inside complete s) := by
  unfold endDcir
  dsimp only
  generalize hq : State.modCell n _ s = q
  have h : Reacts s q := by
    rw [← hq]
    exact (Reacts.refl s).modCell fun _ => rfl
  exact reacts_ite (h.trans (endUse_reacts q n)) h

theorem stepRecord_reacts (n : Chan) (o : Owed) : Reacts s (stepRecord n o s) :=
  reacts_ite (Reacts.refl s) (reacts_of_eq rfl rfl rfl rfl rfl)

theorem endStep_reacts (n : Chan) (reason : Byte) (tw : Nat) (boundary : Bool) : Reacts s (endStep n reason tw boundary s) := by
  unfold endStep
  split
  · exact (Reacts.refl s).modSeq fun _ => rfl
  · dsimp only
    generalize hq : (if boundary = true then endCapture n s else s) = q
    have hc : Reacts s q := by
      rw [← hq]
      exact reacts_ite (endCapture_reacts s n) (Reacts.refl s)
    have h := (hc.trans (endSweep_reacts q n)).trans (endDcir_reacts _ n (!boundary) (decide (reason = 2)))
    generalize endDcir n (!boundary) (decide (reason = 2)) (endSweep n q) = u at h ⊢
    have k {o : Owed} {f : Seq → Seq} (hf : ∀ x, (f x).state = x.state) :
        Reacts s (if boundary = true then stepRecord n o (raiseBit (chB (dr n)) 0 (u.modSeq n f))
          else raiseBit (chB (dr n)) 0 (u.modSeq n f)) :=
      reacts_ite ((h.modSeq hf).raiseBit.trans (stepRecord_reacts ..)) (h.modSeq hf).raiseBit
    exact k fun _ => rfl

theorem spoilDcir_reacts (n : Chan) : Reacts s (spoilDcir n s) := (Reacts.refl s).modCell fun c => by split <;> rfl

theorem decayContr_reacts (n : Chan) : Reacts s (decayContr n s) := (Reacts.refl s).modCell fun c => by split <;> rfl

theorem withdrawCh_reacts (n : Chan) : Reacts s (withdrawCh n s) := reacts_of_eq rfl rfl rfl rfl rfl

theorem quit_reacts (n : Chan) (reason : Option Byte) (boundary : Bool) : Reacts s (quit n reason boundary s) := by
  unfold quit
  dsimp only
  refine Reacts.modSeq (Reacts.trans ?_ (withdrawCh_reacts _ n)) fun _ => rfl
  refine Reacts.trans ?_ (decayContr_reacts _ n)
  split
  · exact (spoilDcir_reacts s n).trans (endStep_reacts ..)
  · exact spoilDcir_reacts s n

/-! ### Paths -/

theorem retrim_reacts (n : Chan) : Reacts s (retrim n s) := by
  unfold retrim
  dsimp only
  split
  · generalize hq : State.modCell n _ s = q
    have h : Reacts s q := by
      rw [← hq]
      exact (Reacts.refl s).modCell fun _ => rfl
    refine Reacts.raiseBit (Reacts.raiseBit ?_)
    exact h.trans (reacts_of_eq rfl rfl rfl rfl rfl)
  · exact (Reacts.refl s).modCell fun _ => rfl

theorem retrimAll_reacts : Reacts s (retrimAll s) := forChans_reacts (fun n t => retrim_reacts t n) _ s

theorem stopPaths_reacts (n : Chan) : Reacts s (stopPaths n s) := (Reacts.refl s).modPs.trans (retrim_reacts _ n)

theorem startRamp_reacts (toFault : Bool) (n : Chan) : Reacts s (startRamp toFault n s) := (Reacts.refl s).modPs

/-! ### SAFE and FAULT -/

theorem setStateOne_state (n k : Chan) (st : ChState) :
    ((setStateOne n st s).cell k).seq.state = if k = n then st else (s.cell k).seq.state := by
  have hr (u : State) : ((raise (chB (dr n)) st.statusBits u).cell k) = u.cell k := rfl
  unfold setStateOne
  by_cases hk : k = n
  · subst hk
    split
    · simp [*]
    · simp [hr, cell_modSeq]
  · rw [if_neg hk]
    split
    · rfl
    · simp [hr, State.modSeq, cell_modCell_other s _ hk]

theorem setState_state (n k : Chan) (st : ChState) :
    ((setState n st s).cell k).seq.state = if k ∈ s.gangOf n then st else (s.cell k).seq.state := by
  have h (l : List Chan) (u : State) :
      ((forChans l (setStateOne · st) u).cell k).seq.state = if k ∈ l then st else (u.cell k).seq.state := by
    induction l generalizing u with
    | nil => rfl
    | cons n l ih =>
      have e : forChans (n :: l) (setStateOne · st) u = forChans l (setStateOne · st) (setStateOne n st u) := rfl
      rw [e, ih, setStateOne_state]
      by_cases hk : k = n <;> simp [hk]
  exact h _ s

theorem setStateOne_keeps_mgmt (n : Chan) (st : ChState) : (setStateOne n st s).mgmt = s.mgmt := by
  unfold setStateOne
  split <;> simp

theorem setStateOne_status (n : Chan) (st : ChState) (i : Nat) (h : bit s.com[6].status i = true) :
    bit (setStateOne n st s).com[6].status i = true := by
  unfold setStateOne
  split
  · exact h
  · exact (Reacts.raise (Reacts.refl _)).status i h

/-- A gang that its leader puts into SAFE or FAULT. -/
theorem setState_reacts (n : Chan) {st : ChState} (hst : st = .safe ∨ st = .fault) :
    Reacts s (setState (s.leader n) st s) := by
  obtain ⟨-, hregs, hbanks⟩ := setState_keeps s (s.leader n) st
  have hhalt (k : Chan) (hk : k ∈ s.gangOf (s.leader n)) : (setState (s.leader n) st s).halted k := by
    rw [State.halted, setState_state, if_pos hk]
    exact hst
  have hkeep (k : Chan) (hk : k ∉ s.gangOf (s.leader n)) : (setState (s.leader n) st s).halted k ↔ s.halted k := by
    rw [State.halted, setState_state, if_neg hk, State.halted]
  have hmgmt : (setState (s.leader n) st s).mgmt = s.mgmt :=
    forChans_keeps (P := fun t => t.mgmt = s.mgmt) (fun k t h => (setStateOne_keeps_mgmt t k st).trans h) _ s rfl
  refine ⟨hregs, fun _ _ _ => by rw [hbanks], by rw [hmgmt], fun i hi => ?_, fun k hk => ?_, fun hs k hk => ?_⟩
  · exact forChans_keeps (P := fun t => bit t.com[6].status i = true) (fun k t h => setStateOne_status t k st i h) _ s hi
  · by_cases hm : k ∈ s.gangOf (s.leader n)
    · exact hhalt k hm
    · exact (hkeep k hm).mpr hk
  · rw [leader_of_regs hregs] at hk
    by_cases hm : k ∈ s.gangOf (s.leader n)
    · exact hhalt k hm
    · have hl : s.leader k ∉ s.gangOf (s.leader n) := fun h => hm (by
        have e : s.leader k = s.leader n := by
          rw [← leader_leader s k, leader_of_mem_gangOf h, leader_leader]
        rw [← e]
        exact mem_gangOf_leader s k)
      exact (hkeep k hm).mpr (hs k ((hkeep _ hl).mp hk))

theorem endRamp_reacts (n : Chan) : Reacts s (endRamp n s) := by
  unfold endRamp
  dsimp only
  split
  · exact Reacts.refl s
  · have h : Reacts s (forChans (s.gangOf (s.leader n))
        (fun k t => stopPaths k (t.modPs k fun p => { p with toFault := false })) s) :=
      forChans_reacts (fun k t => (Reacts.refl t).modPs.trans (stopPaths_reacts _ k)) _ s
    have hl := leader_of_regs h.regs n
    generalize forChans (s.gangOf (s.leader n)) _ s = u at h hl ⊢
    rw [← hl]
    exact reacts_ite (h.trans (setState_reacts u n (.inr rfl))) h

theorem stopOff_reacts : Reacts s (stopOff s) := by
  unfold stopOff
  split
  · exact Reacts.refl s
  · refine forChans_reacts (fun n t => ?_) _ s
    exact reacts_ite (Reacts.refl t) ((endRamp_reacts t n).trans (stopPaths_reacts _ n))

/-- An entry to SAFE leaves a channel whose leader is in SAFE or FAULT as it is, and else puts the leader's gang there. -/
theorem safeWith_cases (reason : Option Byte) (toFault boundary : Bool) (n : Chan) :
    (s.halted (s.leader n) ∧ safeWith reason toFault boundary n s = s)
      ∨ ∃ u st, Reacts s u ∧ (st = .safe ∨ st = .fault) ∧ safeWith reason toFault boundary n s = setState (u.leader n) st u := by
  unfold safeWith
  dsimp only
  split
  · exact .inl ⟨.inl ‹_›, rfl⟩
  · exact .inl ⟨.inr ‹_›, rfl⟩
  · have h : Reacts s (stopOff (forChans (State.gangOf (quit (s.leader n) reason boundary s) (s.leader n)) (startRamp toFault)
        (quit (s.leader n) reason boundary s))) :=
      ((quit_reacts s _ reason boundary).trans (forChans_reacts (fun k t => startRamp_reacts t toFault k) _ _)).trans
        (stopOff_reacts _)
    have hl := leader_of_regs h.regs n
    generalize stopOff _ = u at h hl ⊢
    rw [← hl]
    split
    · exact .inr ⟨u, .fault, h, .inr rfl, rfl⟩
    · exact .inr ⟨u, .safe, h, .inl rfl, rfl⟩

theorem safeWith_reacts (reason : Option Byte) (toFault boundary : Bool) (n : Chan) :
    Reacts s (safeWith reason toFault boundary n s) := by
  rcases safeWith_cases s reason toFault boundary n with ⟨-, he⟩ | ⟨u, st, hu, hst, he⟩
  · rw [he]
    exact Reacts.refl s
  · rw [he]
    exact hu.trans (setState_reacts u n hst)

theorem enterSafe_reacts (n : Chan) : Reacts s (enterSafe n s) := safeWith_reacts s _ _ _ n

theorem allSafe_reacts : Reacts s (allSafe s) := forChans_reacts (fun n t => enterSafe_reacts t n) _ s

/-- A channel whose gang's halts are shared is in SAFE or FAULT once it has entered SAFE. -/
theorem enterSafe_halted (n : Chan) (h : HaltsShared s) : (enterSafe n s).halted n := by
  rcases safeWith_cases s (some 4) false false n with ⟨hl, he⟩ | ⟨u, st, -, hst, he⟩
  · rw [enterSafe, he]
    exact h n hl
  · rw [enterSafe, he, State.halted, setState_state, if_pos (mem_gangOf_leader u n)]
    exact hst

/-- Where gangs share their halts, every channel is in SAFE or FAULT once all have entered SAFE. -/
theorem allSafe_halted (h : HaltsShared s) (n : Chan) : (allSafe s).halted n := by
  have e : allSafe s = (List.finRange 32).foldl (fun t k => enterSafe k t) s := rfl
  rw [e]
  exact foldl_finRange_at (P := Reacts s) (Q := fun t => t.halted n) n (fun t k _ ht => ht.trans (enterSafe_reacts t k))
    (fun t ht => enterSafe_halted t n (ht.shared h)) (fun t k _ ht => (enterSafe_reacts t k).halted n ht) (Reacts.refl s)

end

end Sys2Proof.Machine
end

section
/-! SUPPORT. What the fault collector's reactions leave (`Reacts`): the resets of blocks, the reports of a cycle, the wipe. -/

namespace Sys2Proof.Machine

variable (s : State)

/-! ### Resets of blocks -/

theorem setSafe_reacts (f : Fin 8 → Bool) : Reacts s (setSafe f s) := by
  refine foldl_reacts (fun t k => ?_) _ s
  exact reacts_ite (Reacts.refl t).modPin.raiseBit (Reacts.refl t)

theorem closeAllLocks_reacts : Reacts s (closeAllLocks s) :=
  reacts_of_states rfl rfl rfl (fun i h => by simpa [closeAllLocks] using h) fun _ => rfl

theorem resetFixture_reacts : Reacts s (resetFixture s) := by
  have trigger (t : State) : Reacts t (triggerSequence .plain t) := by
    unfold triggerSequence beginSequence
    repeat' split
    all_goals exact reacts_of_eq rfl rfl rfl rfl rfl
  refine Reacts.trans ?_ (trigger _)
  dsimp only
  split
  · exact reacts_of_eq rfl rfl rfl rfl rfl
  · exact reacts_of_eq rfl rfl rfl rfl rfl

theorem resetIo24_reacts : Reacts s (resetIo24 s) := (setSafe_reacts s _).trans (reacts_of_eq rfl rfl rfl rfl rfl)

theorem resetMgmt_reacts : Reacts s (resetMgmt s) := ⟨rfl, fun _ _ _ => rfl, rfl, fun _ h => h, fun _ h => h, id⟩

theorem seeUvw_reacts : Reacts s (seeUvw s) := by
  refine Reacts.raiseIf ?_
  exact reacts_of_eq rfl rfl rfl rfl rfl

theorem setVb_reacts (v : Int) : Reacts s (setVb v s) := by
  refine Reacts.trans ?_ (retrimAll_reacts _)
  exact reacts_of_eq rfl rfl rfl rfl rfl

theorem resetBench_reacts : Reacts s (resetBench s) := by
  refine Reacts.trans (Reacts.trans ?_ (seeUvw_reacts _)) (setVb_reacts _ _)
  exact reacts_of_eq rfl rfl rfl rfl rfl

theorem noteNet_reacts : Reacts s (noteNet s) := by
  refine Reacts.raiseIf (Reacts.raiseIf ?_)
  exact reacts_of_eq rfl rfl rfl rfl rfl

/-- Channels that enter SAFE where they meet a condition. -/
theorem forSafe_reacts (c : Chan → State → Bool) (reason : Option Byte) (toFault boundary : Bool) (l : List Chan) :
    Reacts s (forChans l (fun n t => if c n t then safeWith reason toFault boundary n t else t) s) :=
  forChans_reacts (fun n t => reacts_ite (safeWith_reacts t _ _ _ n) (Reacts.refl t)) l s

theorem safeHalf_reacts (b : Bool) : Reacts s (safeHalf b s) :=
  forSafe_reacts s (fun n t => (t.cell n).seq.state.live) _ _ _ _

theorem resetBroker_reacts : Reacts s (resetBroker s) := by
  have h := forSafe_reacts s (fun n t => (t.cell n).seq.state.live && decide ((t.cell n).seq.phase ≠ .off)
    && (t.cell n).seq.step.any Step.requests) (some 4) false false allChans
  refine Reacts.trans (Reacts.trans ?_ (noteNet_reacts _)) (retrimAll_reacts _)
  dsimp only [enterSafe]
  generalize forChans allChans _ s = q at h ⊢
  exact h.trans (reacts_of_eq rfl rfl rfl rfl rfl)

theorem resetRecipe_reacts : Reacts s (resetRecipe s) := by
  have h := forSafe_reacts s (fun n t => (t.cell n).seq.state.live) (some 10) false false allChans
  unfold resetRecipe
  dsimp only
  generalize forChans allChans _ s = q at h ⊢
  exact h.trans (reacts_of_eq rfl rfl rfl rfl rfl)

theorem resetCapture_reacts : Reacts s (resetCapture s) := by
  unfold resetCapture
  dsimp only
  refine forChans_reacts (fun n t => ?_) _ s
  exact (dropUse_reacts t n).modCell fun _ => rfl

theorem leafLeave_reacts (defer : Bool) : Reacts s (leafLeave defer s) :=
  reacts_ite (reacts_of_eq rfl rfl rfl rfl rfl) (Reacts.refl s)

theorem resetChains_reacts (b : Bool) : Reacts s (resetChains b s) := by
  unfold resetChains
  refine forChans_reacts (fun n t => ?_) _ s
  exact (Reacts.refl t).modCell fun _ => rfl

theorem resetUnits_reacts (b : Bool) : Reacts s (resetUnits b s) :=
  forChans_reacts (fun n t => (stopPaths_reacts t n).modPs) _ s

theorem blockReset_reacts (l : Line) : Reacts s (blockReset l s) := by
  have h : Reacts s ((resetPages l).foldl (fun t b => closeLock b t) s) :=
    foldl_reacts (fun t b => (Reacts.refl t).closeLock) _ s
  unfold blockReset
  dsimp only
  generalize (resetPages l).foldl (fun t b => closeLock b t) s = q at h ⊢
  refine h.trans ?_
  split
  case h_3 => exact resetMgmt_reacts q
  case h_4 => exact resetFixture_reacts q
  case h_5 => exact resetIo24_reacts q
  case h_6 => exact resetBench_reacts q
  case h_7 => exact resetBroker_reacts q
  case h_8 => exact resetRecipe_reacts q
  case h_9 | h_10 => exact resetCapture_reacts q
  case h_11 =>
    refine Reacts.trans ?_ (leafLeave_reacts _ false)
    exact reacts_of_eq rfl rfl rfl rfl rfl
  case h_12 => exact (safeHalf_reacts q false).trans (resetChains_reacts _ false)
  case h_13 => exact (safeHalf_reacts q true).trans (resetChains_reacts _ true)
  case h_14 => exact safeHalf_reacts q false
  case h_15 => exact safeHalf_reacts q true
  all_goals exact reacts_of_eq rfl rfl rfl rfl rfl

/-! ### Reactions and reports -/

theorem runPart_reacts (p : RxPart) : Reacts s (runPart p s) := by
  unfold runPart
  split
  · exact forChans_reacts (fun n t => enterSafe_reacts t n) _ s
  · exact blockReset_reacts s _
  · exact allSafe_reacts s
  · exact Reacts.refl s

theorem failStop_reacts (cause : BitVec 4) (line : Line) : Reacts s (failStop cause line s) := by
  unfold failStop
  split
  · exact Reacts.refl s
  · refine Reacts.trans (Reacts.trans (Reacts.trans ?_ (allSafe_reacts _)) (closeAllLocks_reacts _)) (setSafe_reacts _ _)
    exact reacts_of_eq rfl rfl rfl rfl rfl

theorem startReaction_reacts (ps : List RxPart) : Reacts s (startReaction ps s) := by
  have h (parts : List RxPart) : Reacts s (parts.foldl (fun t p => runPart p t) s) :=
    foldl_reacts (fun t p => runPart_reacts t p) parts s
  unfold startReaction
  dsimp only
  split
  · exact Reacts.refl s
  · split
    · exact Reacts.refl s
    · split
      · exact failStop_reacts s _ _
      · split
        · exact Reacts.refl s
        · split
          · exact (h _).trans (reacts_of_eq rfl rfl rfl rfl rfl)
          · exact (h _).trans (reacts_of_eq rfl rfl rfl rfl rfl)

theorem latchReport_reacts (l : Line) (c : FClass) : Reacts s (latchReport l c s) := by
  refine Reacts.raise ?_
  exact reacts_of_eq rfl rfl rfl rfl rfl

theorem captureReport_reacts (r : Report) (c : FClass) (last : Bool) : Reacts s (captureReport r c last s) :=
  reacts_of_eq rfl rfl rfl rfl rfl

theorem shadowReport_reacts (r : Report) (inB : Bool) : Reacts s (shadowReport r inB s) := by
  have h := (reacts_ite (c := s.reaction r r.cls = 0) (Reacts.refl s) (latchReport_reacts s r.line r.cls)).trans
    (captureReport_reacts _ r r.cls false)
  exact h.trans (reacts_of_eq rfl rfl rfl rfl rfl)

theorem normalReport_reacts (r : Report) : Reacts s (normalReport r s).2 := by
  have h : Reacts s (countReport r s).2 := by
    unfold countReport
    dsimp only
    exact (Reacts.refl s).modCom fun _ _ h => h
  unfold normalReport
  dsimp only
  exact (h.trans (reacts_ite (Reacts.refl _) (latchReport_reacts _ _ _))).trans (captureReport_reacts _ _ _ _)

theorem takeReports_reacts (rs : List Report) : Reacts s (takeReports rs s) := by
  unfold takeReports
  dsimp only
  refine Reacts.trans ?_ (startReaction_reacts _ _)
  generalize rs.foldl (fun l r => insertReport r l) [] = l
  refine List.foldlRecOn (motive := fun acc : List RxPart × State => Reacts s acc.2) l _ (Reacts.refl s) fun acc h r _ => ?_
  split
  · exact h.trans (shadowReport_reacts ..)
  · exact h.trans (normalReport_reacts ..)

theorem reports_reacts (rs : List Report) : Reacts s (reports rs s) :=
  reacts_ite (reacts_of_eq rfl rfl rfl rfl rfl) (takeReports_reacts s rs)

/-! ### What settles before the alerts -/

theorem uvGuard_reacts : Reacts s (uvGuard s) :=
  reacts_ite (Reacts.refl s) (forChans_reacts (fun n t => reacts_ite (enterSafe_reacts t n) (Reacts.refl t)) _ s)

theorem finish_reacts (x : Reaction) : Reacts s (x.finish s) := by
  refine foldl_reacts (fun t p => ?_) _ s
  exact reacts_ite (resetUnits_reacts t false) (reacts_ite (resetUnits_reacts t true) (Reacts.refl t))

theorem settleReaction_reacts (nested : Bool) : Reacts s (settleReaction nested s) := by
  unfold settleReaction
  split
  · exact Reacts.refl s
  · refine reacts_ite ?_ (Reacts.refl s)
    unfold opReactionEnd
    split
    · exact Reacts.refl s
    · rename_i x _
      refine reacts_ite (Reacts.refl s) (Reacts.trans (t := x.finish s) (finish_reacts s x) ?_)
      cases nested <;> exact reacts_of_eq rfl rfl rfl rfl rfl

theorem settleOutputs_reacts : Reacts s (settleOutputs s) := by
  refine foldl_reacts (fun t k => ?_) _ s
  dsimp only
  exact reacts_ite (reacts_ite (Reacts.refl t).modPin (Reacts.refl t).modPin.raiseBit) (Reacts.refl t)

/-- A wipe, where the lid trigger is enabled. -/
theorem wipeFlags_reacts (h : bit (s.reg 0x10 0x01) 1 = true) : Reacts s (wipeFlags s) := by
  unfold wipeFlags wipe
  split
  · exact Reacts.refl s
  · refine Reacts.raiseBit ?_
    refine ⟨rfl, fun b _ hs => ?_, rfl, fun _ h => h, fun _ h => h, id⟩
    cases b with
    | s => exact absurd h (by simp [hs rfl])
    | _ => rfl

theorem trigger_reacts (i : Nat) (h : bit (s.reg 0x10 0x01) 1 = true) : Reacts s (trigger i s) := by
  have hfree (t : State) : Reacts t (freeWord t).2 := reacts_of_eq rfl rfl rfl rfl rfl
  have hcap (t : State) : Reacts t (capErrFree bSec t) := (hfree t).capErr
  have hr : Reacts s (blockErrorFree bSec lTamper .contained none .none (i + 1) (raiseBit bSec i s)) :=
    ((Reacts.refl s).raiseBit.trans (hcap _)).trans (reports_reacts _ _)
  unfold trigger
  split
  · exact Reacts.refl s
  · refine hr.trans (wipeFlags_reacts _ ?_)
    rw [State.reg, hr.regs]
    exact h

theorem settleLid_reacts : Reacts s (settleLid s) := by
  have hnote : Reacts s (noteTrigger 1 s.lid s) := by
    unfold noteTrigger
    dsimp only
    split
    · exact Reacts.refl s
    · generalize hq : ({ s with sec := _ } : State) = q
      have h : Reacts s q := by
        rw [← hq]
        exact reacts_of_eq rfl rfl rfl rfl rfl
      split
      · rename_i hlid
        refine h.trans (trigger_reacts q _ ?_)
        rw [State.reg, h.regs]
        simp only [State.lid, Bool.and_eq_true] at hlid
        exact hlid.1.1
      · exact h
  exact reacts_ite (hnote.trans (settleOutputs_reacts _)) hnote

theorem noteWait_reacts (n : Chan) : Reacts s (noteWait n s) := by
  unfold noteWait
  dsimp only
  split
  · exact Reacts.refl s
  · exact reacts_ite (Reacts.refl s) (reacts_ite (Reacts.refl s) ((Reacts.refl s).modSeq fun _ => rfl))

theorem settleDomains_reacts : Reacts s (settleDomains s) := by
  refine reacts_ite (Reacts.refl s) (Reacts.raiseBit ?_)
  exact reacts_of_eq rfl rfl rfl rfl rfl

/-- Settling is a reaction, then the ALERT latches and a limit that ends a power state. -/
theorem settle_eq : ∃ u, Reacts s u ∧ settle s = settlePower (settleAlerts u) := by
  have h1 := ((uvGuard_reacts s).trans (settleReaction_reacts _ false)).trans (settleReaction_reacts _ true)
  have h2 := (h1.trans (settleOutputs_reacts _)).trans (settleLid_reacts _)
  have h3 := h2.trans (forChans_reacts (f := noteWait) (fun n t => noteWait_reacts t n) allChans _)
  exact ⟨_, h3.trans (settleDomains_reacts _), rfl⟩

theorem wakeBy_mgmt (code : BitVec 4) (pin : BitVec 3) : (wakeBy code pin s).mgmt = s.mgmt := by
  unfold wakeBy
  dsimp only
  split
  · simp
  · split <;> rfl

theorem settlePower_mgmt : (settlePower s).mgmt = s.mgmt := by
  unfold settlePower
  dsimp only
  split
  · exact wakeBy_mgmt s _ _
  · rfl

/-- An ALERT condition that holds already does not latch again (R429). -/
theorem settleAlerts_alertSrc {i : Nat} (h : s.mgmt.cond.getLsbD i = true) :
    (settleAlerts s).mgmt.alertSrc.getLsbD i = s.mgmt.alertSrc.getLsbD i := by
  simp [settleAlerts, h]

end Sys2Proof.Machine
end

section
/-! SUPPORT. Writes on the management bus (14_management_bus.md): how a transaction that breaks no rule, one whose command byte is
not acknowledged and one that R425 refuses come down to the operation of their command. Settles O57. -/

namespace Sys2Proof.Machine

/-! ### What a command that ends leaves -/

/-- What t, in which a command ends that leads to s, keeps of s whatever reactions follow the command. -/
structure Ends (s t : State) : Prop where
  stores : KeepsStores s t
  stop : t.mgmt.stop = s.mgmt.stop
  alert : ∀ i, s.mgmt.cond.getLsbD i = true → t.mgmt.alertSrc.getLsbD i = s.mgmt.alertSrc.getLsbD i
  status : ∀ i, bit s.com[6].status i = true → bit t.com[6].status i = true
  halted : ∀ n, s.halted n → t.halted n

theorem Reacts.ends {s u t : State} (h : Reacts s u) (k : Ends u t) : Ends s t := by
  obtain ⟨kr, kb⟩ := k.stores
  refine ⟨⟨kr.trans h.regs, fun b a hc hs => ?_⟩, ?_, fun i hi => ?_, fun i hi => k.status i (h.status i hi),
    fun n hn => k.halted n (h.halted n hn)⟩
  · rw [kb b a hc fun e => by rw [State.reg, h.regs]; exact hs e, State.byte, h.cells b hc hs]
    rfl
  · rw [k.stop, h.mgmt_field Mgmt.stop fun _ _ _ _ => rfl]
  · rw [k.alert i (by rw [h.mgmt_field Mgmt.cond fun _ _ _ _ => rfl]; exact hi),
      h.mgmt_field Mgmt.alertSrc fun _ _ _ _ => rfl]

theorem settle_ends (s : State) : Ends s (settle s) := by
  obtain ⟨u, hu, he⟩ := settle_eq s
  rw [he]
  refine hu.ends ?_
  have h := settleAlerts_settles u
  have k := settles_trans h (settlePower_settles (settleAlerts u))
  refine ⟨⟨k.regs, fun b a _ _ => settles_byte k b a⟩, ?_, fun i hi => ?_, fun i hi => ?_, fun n hn => ?_⟩
  · rw [settlePower_mgmt]
    rfl
  · rw [settlePower_mgmt, settleAlerts_alertSrc u hi]
  · have e : (settlePower (settleAlerts u)).com[6].status = u.com[6].status := k.status bMgmt (by decide) (by decide)
    rw [e]
    exact hi
  · rw [State.halted, settles_state k]
    exact hn

theorem completes_of_ends {c : Instr} {s u : State} {p : State → Prop} (he : exec c s = done u) (hp : ∀ t, Ends u t → p t) :
    Completes c s p := ⟨settle u, he, hp _ (settle_ends u)⟩

theorem completes_imp {c : Instr} {s : State} {p q : State → Prop} (h : Completes c s p) (hpq : ∀ t, p t → q t) :
    Completes c s q := by
  obtain ⟨t, he, hp⟩ := h
  exact ⟨t, he, hpq t hp⟩

/-! ### A transaction -/

/-- A transaction that meets no misplaced START or STOP, no upset and no other write. -/
def plainTx (d : List Byte) (p : Option Byte) : MgmtTx := ⟨d, p, none, false, [], 0, []⟩

/-- The bus's own words replaced. -/
theorem mgmt_quiet (x : Mgmt) (s : State) : Quiet s { s with mgmt := x } :=
  ⟨⟨rfl, fun _ _ => rfl, rfl, rfl, fun _ => rfl⟩, id, id⟩

theorem settles_quiet {s t : State} (k : Settles s t) : Quiet s t :=
  ⟨settles_keepsRest k, settles_calm k, fun h => by rw [Settled, k.hk, k.sys]; exact h⟩

theorem beginTx_quiet (s : State) : Quiet s (beginTx s) := quiet_trans (mgmt_quiet _ s) (settles_quiet (wakeBy_settles ..))

/-- The transaction counts, and its bytes are acknowledged. -/
def ackTx (s : State) : State := { countTx s with mgmt := { (countTx s).mgmt with ack := true } }

theorem countTx_quiet (s : State) : Quiet s (countTx s) := mgmt_quiet _ s

theorem ackTx_quiet (s : State) : Quiet s (ackTx s) := quiet_trans (countTx_quiet s) (mgmt_quiet _ _)

theorem reg_of_quiet {s t : State} (h : Quiet s t) (p o : Nat) : t.reg p o = s.reg p o := by
  obtain ⟨⟨hr, -⟩, -⟩ := h
  rw [State.reg, hr, State.reg]

theorem transaction_of_on {s : State} {code : Nat} {f : State → State} (hon : s.mgmtOn = true) (hst : s.sys.stage ≠ 0xF0) :
    transaction code f s = f (beginTx s) := by
  have hst' : s.sys.stage ≠ 240#8 := hst
  simp [transaction, State.mgmtServes, hon, hst']

theorem beginTx_mgmt (s : State) :
    (beginTx s).mgmt = { s.mgmt with ack := false, out := [], stretch := false, sclLow := false } := wakeBy_mgmt ..

theorem addrByte_beginTx (s : State) (read : Bool) : (beginTx s).addrByte read = s.addrByte read := by
  have h : (beginTx s).sys = s.sys := (wakeBy_settles 2 0 _).sys
  rw [State.addrByte, State.mgmtAddr, h]
  rfl

/-- A write of the bytes its protocol has, without a PEC. -/
theorem judgeTx_noPec {s : State} {code need : Nat} {t : MgmtTx} {rule : List Byte → Option Nat} (hp : t.proto = none)
    (hl : (t.data ++ t.pec.toList).length = need) (hr : rule (t.data ++ t.pec.toList) = none) :
    s.judgeTx code t need rule = .complete (t.data ++ t.pec.toList) none := by
  subst hl
  simp only [State.judgeTx, hp, List.take_length, hr, List.getElem?_eq_none le_rfl]
  simp

theorem judgeTx_plain {s : State} {code need : Nat} {d : List Byte} {rule : List Byte → Option Nat} (hl : d.length = need)
    (hr : rule d = none) : s.judgeTx code (plainTx d none) need rule = .complete d none := by
  have hd : d ++ (none : Option Byte).toList = d := List.append_nil d
  have hj : s.judgeTx code (plainTx d none) need rule = .complete (d ++ (none : Option Byte).toList) none :=
    judgeTx_noPec rfl ((congrArg List.length hd).trans hl) (by rw [plainTx, hd, hr])
  rwa [hd] at hj

/-- A write with a PEC that matches. -/
theorem judgeTx_pec {s : State} {code need : Nat} {d : List Byte} {p : Byte} {rule : List Byte → Option Nat}
    (hl : d.length = need) (hr : rule d = none) (hp : p = pec ([s.addrByte false, BitVec.ofNat 8 code] ++ d)) :
    s.judgeTx code (plainTx d (some p)) need rule = .complete d (some true) := by
  subst hl hp
  simp [State.judgeTx, plainTx, hr]

/-- A write that breaks no rule takes its effect where no PEC is asked for (R417). -/
theorem writeTx_plain {s : State} {code need : Nat} {d : List Byte} {rule : List Byte → Option Nat}
    {f : List Byte → State → State} (h : bit (s.reg 6 8) 0 = false) (hl : d.length = need) (hr : rule d = none) :
    writeTx code need rule (plainTx d none) f s = f d (ackTx s) := by
  have hreg : bit ((countTx s).reg 6 8) 0 = false := h
  simp only [writeTx, judgeTx_plain hl hr, pecRule, hreg]
  rfl

theorem alsoWrites_plain (d : List Byte) (p : Option Byte) (s : State) : alsoWrites (plainTx d p) s = s := by
  simp [alsoWrites, plainTx, collideMeeting, writeCycle, loseInCycle]

theorem finishAlso_plain (d : List Byte) (p : Option Byte) (s : State) : finishAlso (plainTx d p) s = s := rfl

theorem bit_raiseBit {i : Nat} (hi : i < 32) (b : Fin 53) (s : State) : bit (raiseBit b i s).com[b.val].status i = true := by
  rw [raiseBit, raise_status]
  simp [bit, bitW, hi]

/-! ### ALERT (R429) -/

theorem opAlertWrite_plain {s : State} {b0 b1 : Byte} (hon : s.mgmtOn = true) (hst : s.sys.stage ≠ 0xF0)
    (hp : bit (s.reg 6 8) 0 = false) :
    opAlertWrite (plainTx [b0, b1] none) s = clearAlerts [b0, b1] (ackTx (beginTx s)) := by
  rw [← reg_of_quiet (beginTx_quiet s)] at hp
  rw [opAlertWrite, transaction_of_on hon hst]
  simp only [acked, plainTx, Bool.false_eq_true, if_false]
  rw [← plainTx, writeTx_plain (d := [b0, b1]) (need := 2) hp rfl rfl, alsoWrites_plain, finishAlso_plain]

theorem clearAlerts_alertSrc {s : State} {b0 b1 : Byte} {i : Nat} (h : b0.getLsbD i = true) :
    (clearAlerts [b0, b1] s).mgmt.alertSrc.getLsbD i = false := by
  simp [clearAlerts, h]

/-! ### The management stop (R426 to R428) -/

/-- The stop latch, with the transaction acknowledged. -/
def stopLatch (on : Bool) (s : State) : State := { s with mgmt := { s.mgmt with stop := on, ack := true } }

/-- Without another write of the cycle, a hardware set of a STATUS bit that the page has is that set. -/
theorem raiseMeeting_nil {b : Fin 53} {i : Nat} (h : bitW i &&& statusMask b = bitW i) (s : State) :
    raiseMeeting b i [] s = raiseBit b i s := by
  have hn : statusClears (blkPage b) [] = 0#32 := rfl
  rw [raiseMeeting, loseClears, hn, h, BitVec.zero_and, BitVec.zero_and, popCount_zero, lostClears_zero, raiseBit]

/-- The latch sets STATUS.ESTOP, and every channel enters SAFE and every output its safe value. -/
theorem setStop_plain (d : List Byte) (p : Option Byte) (s : State) :
    setStop (plainTx d p) s = setSafeAll (allSafe (raiseBit bMgmt 6 (stopLatch true s))) := by
  rw [setStop, alsoWrites_plain]
  exact congrArg (fun t => setSafeAll (allSafe t)) (raiseMeeting_nil (by decide) (stopLatch true s))

theorem stopWrite_set {s : State} {p : Option Byte} (hp : p = none ∨ p = some (pec [s.addrByte false, 0x10, 0xA5])) :
    stopWrite (plainTx [0xA5] p) s = setStop (plainTx [0xA5] p) s := by
  obtain rfl | rfl := hp
  · simp [stopWrite, judgeTx_plain, finishAlso_plain]
  · simp [stopWrite, judgeTx_pec, finishAlso_plain]

theorem stopWrite_clear_pec {s : State} {p : Byte} (hp : p = pec [s.addrByte false, 0x10, 0x5A]) :
    stopWrite (plainTx [0x5A] (some p)) s = stopLatch false s := by
  simp [stopWrite, judgeTx_pec, hp, finishAlso_plain, alsoWrites_plain, stopLatch]

theorem stopWrite_clear_noPec {s : State} : stopWrite (plainTx [0x5A] none) s = raiseBit bMgmt 2 s := by
  simp [stopWrite, judgeTx_plain]

theorem opStopWrite_plain {s : State} {d : List Byte} {p : Option Byte} (hon : s.mgmtOn = true) (hst : s.sys.stage ≠ 0xF0) :
    opStopWrite (plainTx d p) s = stopWrite (plainTx d p) (countTx (beginTx s)) := by
  rw [opStopWrite, transaction_of_on hon hst]
  rfl

theorem addrByte_countTx_beginTx (s : State) (read : Bool) : (countTx (beginTx s)).addrByte read = s.addrByte read :=
  addrByte_beginTx s read

/-! ### Refused transactions -/

/-- A transaction whose command byte is not acknowledged sets BADCMD alone (R415). -/
theorem transaction_of_nack {s : State} {code : Nat} {x : MgmtTx} {f : State → State} (hon : s.mgmtOn = true)
    (hst : s.sys.stage ≠ 0xF0) (hx : x.nack = true) :
    transaction code (acked x f) s = raiseBit bMgmt 4 (countTx (beginTx s)) := by
  rw [transaction_of_on hon hst, acked, if_pos hx]

/-- With WREN = 0 a register write that breaks no protocol sets WRREJ alone (R425). -/
theorem regWrite_of_noWren {s : State} {code : Nat} {x : MgmtTx} {commit : MgmtTx → List Byte → State → State}
    (hon : s.mgmtOn = true) (hst : s.sys.stage ≠ 0xF0) (hw : bit (s.reg 6 8) 1 = false) (hn : x.nack = false)
    (hp : x.proto = none) (hl : writeNeed x ≤ (x.data ++ x.pec.toList).length) :
    transaction code (acked x (regWriteTx code x commit)) s = raiseBit bMgmt 5 (ackTx (beginTx s)) := by
  rw [← reg_of_quiet (beginTx_quiet s)] at hw
  rw [transaction_of_on hon hst, acked, hn, regWriteTx, hw, Nat.max_eq_right hl, judgeTx_noPec hp rfl rfl]
  rfl

/-- What f reads of the management bus but the ALERT latches, a settling operation keeps. -/
theorem settles_mgmt_field {α : Type} {s t : State} (k : Settles s t) (f : Mgmt → α)
    (hf : ∀ m c a r, f { m with cond := c, alertSrc := a, araDone := r } = f m) : f t.mgmt = f s.mgmt := by
  rw [← k.mgmt]
  exact (hf ..).symm

/-- A command that sets a STATUS bit of the page and leaves the rest. -/
theorem completes_of_raise {c : Instr} {s u : State} {i : Nat} {p : State → Prop} (hi : i < 32)
    (he : exec c s = done (raiseBit bMgmt i u)) (hc : Calm s) (hq : Quiet s u)
    (hp : ∀ t, bit t.com[6].status i = true → t.mgmt.ack = u.mgmt.ack → KeepsRest s t → p t) : Completes c s p := by
  refine completes_of_quiet he hc (quiet_trans hq (modCom_quiet ..)) fun t k r => hp t ?_ ?_ r
  · have e : t.com[6].status = (raiseBit bMgmt i u).com[6].status := k.status bMgmt (by decide) (by decide)
    rw [e]
    exact bit_raiseBit hi bMgmt u
  · exact settles_mgmt_field k Mgmt.ack fun _ _ _ _ => rfl

theorem acts_mgmt {s : State} (hon : s.mgmtOn = true) (hst : s.sys.stage ≠ 0xF0) : s.acts .mgmt = true := by
  have h : bit (s.reg 6 1) 0 = true ∧ s.pwr.state ≠ .off := by simpa [State.mgmtOn] using hon
  exact Bool.and_eq_true_iff.mpr ⟨decide_eq_true h.2, decide_eq_true hst⟩

/-- A transaction wakes the device and leaves its power state and start-up stage. -/
theorem acts_mgmt_beginTx (s : State) : (beginTx s).acts .mgmt = s.acts .mgmt := by
  have k := wakeBy_settles 2 0
    { s with mgmt := { s.mgmt with ack := false, out := [], stretch := false, sclLow := false } }
  have hpwr : (beginTx s).pwr.state = s.pwr.state := (congrArg Pwr.state k.pwr :)
  have hsys : (beginTx s).sys = s.sys := k.sys
  simp only [State.acts, hpwr, hsys]

/-- CTRL, CFG and ALERTEN ignore a write of the bus (R425). -/
theorem writeOne_mgmt_own {o : Nat} (v : Word) {s : State} (ha : s.acts .mgmt = true) (ho : o = 1 ∨ o = 8 ∨ o = 10) :
    writeOne .mgmt 6 o v s = touchReg 6 o s := by
  rw [writeOne_eq ha (show pageBlk 6 = some bMgmt from rfl) (by omega) (by omega) (by omega)]
  obtain rfl | rfl | rfl := ho <;> rfl

/-! ### The recipe table -/

/-- The edition of the recipe table counts a commit of the bus that covers it (R143). -/
def countTable (s : State) : State := raiseBit bRcp 0 { s with rcp := { s.rcp with edition := s.rcp.edition + 1 } }

/-- A word of the bus to the recipe table. -/
theorem writeCycle_table {p o : Nat} (v : Word) {s : State} (ha : s.acts .mgmt = true) (hp : 0x80 ≤ p ∧ p < 0xA0) :
    writeCycle [⟨.mgmt, p, o, [v], false⟩] s = countTable (touchReg p o (s.putWord .r ((p - 0x80) * 1024 + 4 * o) v)) := by
  have hb : pageBlk p = none := by
    have h1 : ¬ p < 20 := by omega
    have h2 : ¬ (0x20 ≤ p ∧ p ≤ 0x40) := by omega
    simp [pageBlk, h1, h2]
  have hturns := writeTurns_single .mgmt p o v s
  have hl (t : State) : loadTime ⟨.mgmt, p, o, [v], false⟩ t = t := loadTime_single .mgmt v t (by omega)
  have he (t : State) : countEdition ⟨.mgmt, p, o, [v], false⟩ t = countTable t := by simp [countEdition, hp, countTable]
  have hlose (t : State) : loseInCycle [⟨.mgmt, p, o, [v], false⟩] t = t := by
    simp [loseInCycle, List.eraseDups_cons, hb]
  simp only [writeCycle, List.filter_cons, List.filter_nil, ha, if_true, List.foldl_cons, List.foldl_nil, insertCommit, hl, he,
    hlose] at hturns ⊢
  rw [hturns, writeWord, if_pos hp]

theorem wordLE_bytesLE (v : Word) :
    wordLE (v.extractLsb' 0 8) (v.extractLsb' 8 8) (v.extractLsb' 16 8) (v.extractLsb' 24 8) = v := by
  unfold wordLE
  rw [BitVec.extractLsb'_append_extractLsb'_eq_extractLsb' (by decide),
    BitVec.extractLsb'_append_extractLsb'_eq_extractLsb' (by decide),
    BitVec.extractLsb'_append_extractLsb'_eq_extractLsb' (by decide)]
  exact BitVec.extractLsb'_eq_self

/-- The bytes of a word read as written, every other byte as before. -/
theorem byte_putWord {s : State} {b k : Bank} {a x : Nat} {v : Word} (h : Memory.wf s.banks = true) (ha : a + 4 ≤ bankSize b) :
    (s.putWord b a v).byte k x = if b = k ∧ a ≤ x then ((bytesLE v)[x - a]?).getD (s.byte k x) else s.byte k x := by
  rw [State.putWord, byte_putBytes s h, List.take_of_length_le (by simp only [bytesLE, List.length_cons, List.length_nil]; omega)]

/-- A word of a bank reads as written. -/
theorem mword_putWord {s : State} {b : Bank} {a : Nat} {v : Word} (h : Memory.wf s.banks = true) (ha : a + 4 ≤ bankSize b) :
    (s.putWord b a v).mword b a = v := by
  simp only [State.mword, byte_putWord h ha]
  simp [bytesLE, wordLE_bytesLE]

/-- Every byte outside a word reads as before its write. -/
theorem byte_putWord_other {s : State} {b k : Bank} {a x : Nat} {v : Word} (h : Memory.wf s.banks = true)
    (ha : a + 4 ≤ bankSize b) (hx : k ≠ b ∨ x < a ∨ a + 4 ≤ x) : (s.putWord b a v).byte k x = s.byte k x := by
  rw [byte_putWord h ha]
  split
  · rename_i hc
    have hlen : (bytesLE v)[x - a]? = none := List.getElem?_eq_none (by
      have : a + 4 ≤ x := by
        obtain hx | hx := hx
        · exact absurd hc.1.symm hx
        · omega
      simp only [bytesLE, List.length_cons, List.length_nil]
      omega)
    rw [hlen]
    rfl
  · rfl

/-- The data of a write of one word at byte address a of the recipe table. -/
def tableData (a : Nat) (v : Word) : List Byte := [7, BitVec.ofNat 8 a, BitVec.ofNat 8 (a / 256), 2] ++ bytesLE v

theorem txAddr_tableData {a : Nat} (v : Word) (h : a < 0x8000) : txAddr ((tableData a v).drop 1) = a + 0x20000 := by
  simp [txAddr, tableData]
  omega

theorem txWords_tableData (a : Nat) (v : Word) : txWords (tableData a v) = [v] := by
  simp [txWords, tableData, bytesLE, wordsLE, wordLE_bytesLE]

theorem writeRule_tableData {a : Nat} (v : Word) (port : Bool) (h : a < 0x8000) (h4 : a % 4 = 0) :
    writeRule port (tableData a v) = none := by
  have hlen : (tableData a v).length = 8 := rfl
  have hn : ((tableData a v).getD 0 0).toNat = 7 := rfl
  have hw : (if port then 1 else (7 - 3) / 4) = 1 := by cases port <;> rfl
  have hoff : ¬ 255 < addrOff (a + 0x20000) + 1 - 1 := by
    rw [addrOff]
    omega
  have h4' : (a + 0x20000) % 4 = 0 := by omega
  have hlt : ¬ 2 ^ 18 ≤ a + 0x20000 := by omega
  simp only [writeRule, txAddr_tableData v h, hlen, hn, hw, hoff, h4', hlt]
  decide

/-- The state to which a write of one word at byte address a of the recipe table leads. -/
def tableWritten (a : Nat) (v : Word) (s : State) : State :=
  countTable (touchReg (0x80 + a / 1024) (a / 4 % 256) (s.putWord .r a v))

theorem writeCycle_tableData {a : Nat} (v : Word) {s : State} (ha : s.acts .mgmt = true) (h : a < 0x8000) (h4 : a % 4 = 0) :
    writeCycle [⟨.mgmt, addrPage (a + 0x20000), addrOff (a + 0x20000), [v], false⟩] s = tableWritten a v s := by
  have hp : addrPage (a + 0x20000) = 0x80 + a / 1024 := by
    rw [addrPage]
    omega
  have ho : addrOff (a + 0x20000) = a / 4 % 256 := by
    rw [addrOff]
    omega
  have haddr : (0x80 + a / 1024 - 0x80) * 1024 + 4 * (a / 4 % 256) = a := by omega
  rw [hp, ho, writeCycle_table v ha (by omega), haddr, tableWritten]

theorem calm_tableWritten {a : Nat} {v : Word} {s : State} (h : Calm s) : Calm (tableWritten a v s) := h

theorem settled_tableWritten {a : Nat} {v : Word} {s : State} (h : Settled s) : Settled (tableWritten a v s) := h

theorem commitWrite_tableData {a : Nat} (v : Word) {s : State} (ha : s.acts .mgmt = true) (hs : Settled s) (h : a < 0x8000)
    (h4 : a % 4 = 0) : commitWrite (plainTx (tableData a v) none) (tableData a v) s = tableWritten a v s := by
  rw [commitWrite, txAddr_tableData v h, txWords_tableData]
  simp only [plainTx, List.map_nil, collideMeeting, if_true]
  rw [writeCycle_tableData v ha h h4, finishWrite_of_settled (settled_tableWritten hs)]

theorem commitPort_tableData {a : Nat} (v : Word) {s : State} (ha : s.acts .mgmt = true) (hs : Settled s) (h : a < 0x8000)
    (h4 : a % 4 = 0) : commitPort (plainTx (tableData a v) none) (tableData a v) s = tableWritten a v s := by
  have hport : isPort (addrPage (a + 0x20000)) (addrOff (a + 0x20000)) = false := by
    have hpage : 0x80 ≤ addrPage (a + 0x20000) := by
      rw [addrPage]
      omega
    generalize addrPage (a + 0x20000) = p at hpage
    simp only [isPort, decide_eq_false_iff_not]
    omega
  rw [commitPort, txAddr_tableData v h, txWords_tableData, fifoCommit, hport]
  simp only [plainTx, List.map_nil, collideMeeting, if_true, Bool.false_eq_true, if_false, List.getLast?_singleton,
    Option.toList_some]
  rw [writeCycle_tableData v ha h h4, finishWrite_of_settled (settled_tableWritten hs)]

/-- WRITE_REG and WRITE_PORT of a word of the recipe table, WREN set and no PEC asked for. -/
theorem regWrite_tableData {s : State} {a code : Nat} {v : Word} {commit : MgmtTx → List Byte → State → State}
    (hon : s.mgmtOn = true) (hst : s.sys.stage ≠ 0xF0) (hp : bit (s.reg 6 8) 0 = false) (hw : bit (s.reg 6 8) 1 = true)
    (h : a < 0x8000) (h4 : a % 4 = 0) :
    transaction code (acked (plainTx (tableData a v) none) (regWriteTx code (plainTx (tableData a v) none) commit)) s
      = commit (plainTx (tableData a v) none) (tableData a v) (ackTx (beginTx s)) := by
  rw [← reg_of_quiet (beginTx_quiet s)] at hp hw
  have hn : (plainTx (tableData a v) none).nack = false := rfl
  rw [transaction_of_on hon hst, acked, hn, regWriteTx, hw, if_pos rfl]
  exact writeTx_plain hp rfl (writeRule_tableData v _ h h4)

/-- What a write of a word of the recipe table leaves. -/
theorem completes_of_tableWritten {c : Instr} {s u : State} {a : Nat} {v : Word} (he : exec c s = done (tableWritten a v u))
    (hq : Quiet s u) (hc : Calm s) (hst : Memory.wf u.banks = true) (ha : a + 4 ≤ 0x8000) :
    Completes c s fun t => t.mword .r a = v ∧ t.regs = s.regs ∧
      ∀ b x, (b ≠ .r ∨ x < a ∨ a + 4 ≤ x) → t.byte b x = s.byte b x := by
  obtain ⟨⟨hr, hb, -⟩, hcalm, -⟩ := hq
  obtain ⟨t, ht, k⟩ := done_completes (calm_tableWritten (a := a) (v := v) (hcalm hc))
  have hbyte (b : Bank) (x : Nat) : t.byte b x = (u.putWord .r a v).byte b x := settles_byte k b x
  have ha' : a + 4 ≤ bankSize .r := ha
  refine ⟨t, he.trans ht, ?_, k.regs.trans hr, fun b x hx => ?_⟩
  · rw [← mword_putWord (s := u) (v := v) hst ha']
    simp only [State.mword, hbyte]
  · rw [hbyte, byte_putWord_other hst ha' hx, hb]

/-! ### The statement -/

theorem haltsShared_of_gangsShare {s : State} (h : GangsShare s) : HaltsShared s := fun n hn => by
  rw [State.halted, ← h n]
  exact hn

/-- A set of the stop latch ends with every channel in SAFE or FAULT, whatever reactions follow. -/
theorem estopSet_completes {s : State} {p : Option Byte} (hon : s.mgmtOn = true) (hst : s.sys.stage ≠ 0xF0) (hg : GangsShare s)
    (hp : p = none ∨ p = some (pec [s.addrByte false, 0x10, 0xA5])) :
    Completes (.estopSet (plainTx [0xA5] p)) s fun t =>
      t.mgmt.stop = true ∧ bit t.com[6].status 6 = true ∧ (∀ n, t.halted n) ∧ KeepsStores s t := by
  have hq : Quiet s (stopLatch true (countTx (beginTx s))) :=
    quiet_trans (quiet_trans (beginTx_quiet s) (countTx_quiet _)) (mgmt_quiet _ _)
  obtain ⟨⟨hr, hb, -, -, hstates⟩, -⟩ := hq
  have hraise : Reacts (stopLatch true (countTx (beginTx s))) (raiseBit bMgmt 6 (stopLatch true (countTx (beginTx s)))) :=
    (Reacts.refl _).raiseBit
  have hshared := hraise.shared (haltsShared_of_states hr hstates (haltsShared_of_gangsShare hg))
  have hstatus := bit_raiseBit (i := 6) (by decide) bMgmt (stopLatch true (countTx (beginTx s)))
  have he : opStopWrite (plainTx [0xA5] p) s
      = setSafeAll (allSafe (raiseBit bMgmt 6 (stopLatch true (countTx (beginTx s))))) := by
    rw [opStopWrite_plain hon hst, stopWrite_set (by rwa [addrByte_countTx_beginTx]), setStop_plain]
  generalize hv : stopLatch true (countTx (beginTx s)) = v at hr hb hraise hshared hstatus he
  have hstop : v.mgmt.stop = true := by
    rw [← hv]
    rfl
  generalize raiseBit bMgmt 6 v = w at hraise hshared hstatus he
  have hall : Reacts w (setSafeAll (allSafe w)) := (allSafe_reacts w).trans (setSafe_reacts _ _)
  refine completes_of_ends (congrArg done he) fun t k => ?_
  obtain ⟨kr, kb⟩ := ((hraise.trans hall).ends k).stores
  refine ⟨((hraise.trans hall).ends k).stop.trans hstop, (hall.ends k).status 6 hstatus, fun n => ?_, kr.trans hr,
    fun b a hc hs => (kb b a hc fun e => ?_).trans (hb b a)⟩
  · exact k.halted n ((setSafe_reacts _ _).halted n (allSafe_halted w hshared n))
  · rw [State.reg, hr]
    exact hs e

/-- Settles O57: each transaction comes down to one operation on the woken state, and `Ends` says what is left of that state
whatever reactions follow. -/
theorem mgmtWrites : Obligations.MgmtWrites := by
  intro s hon hst
  have hbegin := beginTx_quiet s
  have hregs : (beginTx s).regs = s.regs := hbegin.1.1
  refine ⟨fun b0 b1 hp => ?_, fun p hg hp => estopSet_completes hon hst hg hp, ?_, ?_, fun x hx hc c hcm => ?_,
    fun x hw hn hp hl hc => ?_, fun o v ho hs => ?_, fun a v hp hw hs hc hstored ha h4 => ?_⟩
  · refine completes_of_ends (congrArg done (opAlertWrite_plain hon hst hp)) fun t k => ⟨fun i _ hb hc => ?_, ?_⟩
    · rw [k.alert i ((congrArg (fun m : Mgmt => m.cond.getLsbD i) (beginTx_mgmt s)).trans hc), clearAlerts_alertSrc hb]
    · exact k.stores.1.trans hregs
  · refine completes_of_ends (congrArg done ((opStopWrite_plain hon hst).trans
      (stopWrite_clear_pec (by rw [addrByte_countTx_beginTx])))) fun t k => ⟨k.stop, k.stores.1.trans hregs⟩
  · refine completes_of_ends (congrArg done ((opStopWrite_plain hon hst).trans stopWrite_clear_noPec)) fun t k =>
      ⟨?_, k.status 2 (bit_raiseBit (by decide) bMgmt _), k.stores.1.trans hregs⟩
    have hstop : (beginTx s).mgmt.stop = s.mgmt.stop := by rw [beginTx_mgmt]
    exact k.stop.trans hstop
  · have h {c : Instr} {code : Nat} {f : State → State} (he : exec c s = done (transaction code (acked x f) s)) :
        Completes c s fun t => bit t.com[6].status 4 = true ∧ t.mgmt.ack = false ∧ KeepsRest s t :=
      completes_of_raise (by decide) (he.trans (congrArg done (transaction_of_nack hon hst hx))) hc
        (quiet_trans hbegin (countTx_quiet _)) fun t hi hack r =>
          ⟨hi, hack.trans (congrArg Mgmt.ack (beginTx_mgmt s)), r⟩
    simp only [List.mem_cons, List.not_mem_nil, or_false] at hcm
    obtain rfl | rfl | rfl | rfl | rfl | rfl := hcm <;> exact h rfl
  · have h {c : Instr} {code : Nat} {f : MgmtTx → List Byte → State → State}
        (he : exec c s = done (transaction code (acked x (regWriteTx code x f)) s)) :
        Completes c s fun t => t.mgmt.ack = true ∧ bit t.com[6].status 5 = true ∧ KeepsRest s t :=
      completes_of_raise (by decide) (he.trans (congrArg done (regWrite_of_noWren hon hst hw hn hp hl))) hc
        (quiet_trans hbegin (ackTx_quiet _)) fun t hi hack r => ⟨hack, hi, r⟩
    exact ⟨h rfl, h rfl⟩
  · have hoff : o = 1#8 ∨ o = 8#8 ∨ o = 10#8 := by simpa using ho
    have hnat : o.toNat = 1 ∨ o.toNat = 8 ∨ o.toNat = 10 := by obtain rfl | rfl | rfl := hoff <;> decide
    have h2 : o ≠ 2 := fun e => by simp [e] at hnat
    have hact := acts_mgmt hon hst
    have hw : opRegWrite ⟨.mgmt, 6, o, v⟩ 0 [] [] 0 s = touchReg 6 o.toNat s := by
      rw [opRegWrite_single 0 hact h2, collideMeeting, if_pos rfl]
      exact writeOne_mgmt_own v hact hnat
    refine completes_of_ends (u := touchReg 6 o.toNat s) (congrArg done ?_) fun t k => k.stores.1
    rw [hw]
    exact finishWrite_of_settled hs
  · have hq : Quiet s (ackTx (beginTx s)) := quiet_trans hbegin (ackTx_quiet _)
    have hact : (ackTx (beginTx s)).acts .mgmt = true := (acts_mgmt_beginTx s).trans (acts_mgmt hon hst)
    have hset : Settled (ackTx (beginTx s)) := hq.2.2 hs
    have hbanks : (ackTx (beginTx s)).banks = s.banks := (wakeBy_settles 2 0 _).banks
    have h {c : Instr} (he : exec c s = done (tableWritten a v (ackTx (beginTx s)))) :=
      completes_of_tableWritten he hq hc (by rw [hbanks]; exact hstored.1) (by omega)
    refine ⟨h (congrArg done ?_), completes_imp (h (congrArg done ?_)) fun t ht => ⟨ht.1, ht.2.1⟩⟩
    · exact (regWrite_tableData hon hst hp hw ha h4).trans (commitWrite_tableData v hact hset ha h4)
    · exact (regWrite_tableData hon hst hp hw ha h4).trans (commitPort_tableData v hact hset ha h4)

end Sys2Proof.Machine
end
